-- ==== Sys2Proof/Word.lean ====
section
/-! DEFINITION. The two bit-vector types of the block: the 8-bit excitation pattern (30_encoding R70) and the
12-bit command word (30_encoding R83). -/

namespace Sys2Proof

/-- An excitation pattern, a switch mask, or the output latch: 8 bits, bits 7 to 4 the high-side switches HA, HB, HC,
HD and bits 3 to 0 the low-side switches LA, LB, LC, LD (R70, R71); 1 means commanded on. -/
abbrev Pattern := BitVec 8

/-- A command word `cmd[11:0]` (R83). -/
abbrev CmdWord := BitVec 12

end Sys2Proof
end

