-- ==== Sys2Proof/Syntax.lean ====
section
/-! DEFINITION. The enumerations of the block (30_encoding R73 to R77) and its 20 operations, one constructor for each
row of spec/opcode_table.json. -/

namespace Sys2Proof

/-- The four legs, or phases (00_scope section 7). -/
inductive Phase where
  | a | b | c | d
  deriving DecidableEq, Repr

/-- The rotation (10_state R21, 30_encoding R73). -/
inductive Rotation where
  | cw | ccw
  deriving DecidableEq, Repr

/-- The drive mode (00_scope R6, 30_encoding R74). -/
inductive DriveMode where
  | wave | fullStep | halfStep
  deriving DecidableEq, Repr

/-- The milestone actions (30_encoding R75). -/
inductive Action where
  | none | stopAndReport | reverseAndReport | homeAndReport
  deriving DecidableEq, Repr

/-- The state of the Motion State Machine, which is the timer-interrupt enable (10_state R22). -/
inductive MotionState where
  | stopped | running
  deriving DecidableEq, Repr

/-- The operations (30_encoding R84). `pinw` carries its bit number as the manual writes it, a number;
`Instr.wf` holds it to 0 to 7. -/
inductive Instr where
  | tick
  | advWave
  | advFull
  | advHalf
  | apply (p : Pattern)
  | brake
  | offw (mask : Pattern)
  | onw (mask : Pattern)
  | dt
  | stop
  | resume
  | classify
  | poll
  | actNone
  | actStop
  | actRev
  | actHome
  | rdstep
  | rdlatch
  | pinw (b : Nat) (v : Bool)
  deriving DecidableEq, Repr

end Sys2Proof
end

