-- ==== Sys2Proof/Config.lean ====
section
/-! DEFINITION. The build-time configuration (00_scope R6 to R14, 10_state R26), its values for this hardware, and the
free values of the model. Which configurations are well-formed (R15) is `configOk` of Machine/Operands.lean. -/

namespace Sys2Proof

/-- `WRITE_GRANULARITY` (R14): one atomic write for each half of a switch, or one write a pin. -/
inductive Granularity where
  | bulk | perPin
  deriving DecidableEq, Repr

/-- `PHASE_PATTERN` (R13): the pattern of each energized phase. -/
structure PhasePatterns where
  a : Pattern
  b : Pattern
  c : Pattern
  d : Pattern
  deriving DecidableEq, Repr

/-- The part of `PIN_TABLE` (R14) that a rule reads, R54: the port each of the 8 switch bits sits on.
Pin masks and levels are electrical and no rule reads them (notes/assumptions/16.md). -/
structure PortMap where
  ha : Nat
  hb : Nat
  hc : Nat
  hd : Nat
  la : Nat
  lb : Nat
  lc : Nat
  ld : Nat
  deriving DecidableEq, Repr

/-- The configuration record `Config` (R26). No operation writes it. -/
structure Config where
  /-- `MODE` (R6). -/
  mode : DriveMode
  /-- `U`, steps per quarter turn (R7). -/
  unit : Nat
  /-- `DWELL_MS` (R8); no state rule reads it. -/
  dwellMs : Nat
  /-- `INITIAL_ROTATION` (R9). -/
  initialRotation : Rotation
  /-- `HOME_VARIANT` (R10). -/
  homeVariant : Bool
  /-- `STEP_WIDTH`, written `W` (R11). -/
  stepWidth : Nat
  /-- `DEAD_TIME_CYCLES` (R12); no state rule reads it. -/
  deadTimeCycles : Nat
  /-- `TICK_PERIOD` (R12): OPEN, so `none`; no state rule reads it. -/
  tickPeriod : Option Nat
  /-- `PHASE_PATTERN` (R13). -/
  phasePattern : PhasePatterns
  /-- The ports of `PIN_TABLE` (R14, R54). -/
  portOf : PortMap
  /-- `WRITE_GRANULARITY` (R14). -/
  granularity : Granularity
  deriving DecidableEq, Repr

/-- The `PHASE_PATTERN` of this hardware (R13, R76): the spec's own choice, its decision D5. -/
def PhasePatterns.reference : PhasePatterns := ⟨0x82, 0x41, 0x28, 0x14⟩

/-- All eight switches on one port. DESIGN CHOICE: `PIN_TABLE` is OPEN, and the reference value `bulk` assumes one port
(spec decision D15; notes/assumptions/16.md). -/
def PortMap.onePort : PortMap := ⟨0, 0, 0, 0, 0, 0, 0, 0⟩

/-- The values this hardware takes (R26). -/
def Config.reference : Config where
  mode := .halfStep
  unit := 200
  dwellMs := 1000
  initialRotation := .cw
  homeVariant := true
  stepWidth := 32
  deadTimeCycles := 20
  tickPeriod := none
  phasePattern := .reference
  portOf := .onePort
  granularity := .bulk

/-- FREE VALUE (R54, R55, R104, notes/assumptions/5.md): which order the writes of one half of a switch take, as the
number of a permutation, for each draw. Nothing constrains it. -/
opaque Config.freeOrder : Nat → Nat

/-- FREE VALUE (R19, R150, U21, notes/assumptions/6.md): what a `W`-bit `STEP` register holds after an increment whose
exact result it cannot hold, for each draw. Nothing constrains it but the register's width. -/
opaque Config.freeStep : (w : Nat) → Nat → BitVec w

/-- FREE VALUE (R19, notes/assumptions/7.md): `abs` of the most negative value of a `W`-bit register. -/
opaque Config.freeAbs : (w : Nat) → BitVec w

end Sys2Proof
end

