-- ==== Sys2Proof/Machine/State.lean ====
section
/-! DEFINITION. The machine's state as plain data, its value at reset, and the reasons a step can stop. The block has no
addressable memory (10_state R28), so there is none here. -/

namespace Sys2Proof.Machine

/-- An operation that issues sub-steps (44_operation_classes R172). -/
inductive Parent where
  | tick | adv | apply | brake | poll | act
  deriving DecidableEq, Repr

/-- Who issues the operation that runs (60_exceptions R187, 30_encoding R84): the timer, whose operation runs in the
interrupt context; the foreground; or a running operation, as its sub-step. -/
inductive Ctx where
  | timer
  | foreground
  | inside (parent : Parent)
  deriving DecidableEq, Repr

/-- What a value-returning operation returned: RDSTEP (R146), RDLATCH (R108), CLASSIFY (R160), ADV.m (R121). -/
inductive Ret where
  | void
  | step (n : Int)
  | latch (p : Pattern)
  | action (a : Action)
  | adv (n : Int) (p : Pattern)
  deriving DecidableEq, Repr

/-- A record of the write trace (00_scope section 6, 60_exceptions R194). -/
inductive WriteRec where
  | off (mask : Pattern)
  | on (mask : Pattern)
  | pin (b : Nat) (v : Bool)
  | gap
  deriving DecidableEq, Repr

/-- A call the block makes to a collaborator of the foreground: `Report(kind, rot, mag)` and `Dwell(ms)`
(00_scope section 6, 43_milestone R165, R168). -/
inductive Call where
  | report (kind : Action) (rot : Rotation) (mag : Int)
  | dwell (ms : Nat)
  deriving DecidableEq, Repr

/-- An event of the schedule: the timer's period elapses (60_exceptions R181), power-on (R210), or an operation's command
word is issued (30_encoding R84, R90). -/
inductive Event where
  | elapse
  | rst
  | issue (issuer : Ctx) (w : CmdWord)
  deriving DecidableEq, Repr

/-- The state. `cfg` is the configuration, which nothing writes (R26; notes/assumptions/1.md); `ctx`, `ret`, `trace` and
`calls` are the execution context and the observations the spec names; `inbox` and `free` are the model's own. -/
structure State where
  cfg : Config
  /-- `STEP` (R20): the integer its `W`-bit two's-complement register denotes. -/
  step : Int
  /-- `ROT` (R21). -/
  rot : Rotation
  /-- `RUN` (R22). -/
  run : MotionState
  /-- `LATCH` (R23). -/
  latch : Pattern
  /-- The timer's single pending flag (R29, R181). -/
  tickPending : Bool
  /-- The execution context (R187). -/
  ctx : Ctx
  /-- The value the last value-returning operation returned. -/
  ret : Ret
  /-- The write trace, oldest first (R194). -/
  trace : List WriteRec
  /-- The calls to the collaborators, oldest first (R168). -/
  calls : List Call
  /-- The agents' events, oldest first (R32; notes/assumptions/2.md). -/
  inbox : List Event
  /-- How many free values have been drawn (notes/assumptions/5.md). -/
  free : Nat
  deriving DecidableEq, Repr

/-- The state of a device built with configuration `c` right after power-on (R33, R34, R35, R210). The values of `ctx`,
`ret`, `calls`, `inbox` and `free` are DESIGN CHOICES of notes/assumptions/2.md, 3.md, 4.md, 5.md and 17.md. -/
def State.powerOn (c : Config) : State where
  cfg := c
  step := 0
  rot := c.initialRotation
  run := .running
  latch := 0x00
  tickPending := false
  ctx := .foreground
  ret := .void
  trace := []
  calls := []
  inbox := []
  free := 0

/-- The machine right after reset: this hardware's configuration (R26). -/
def State.reset : State := State.powerOn Config.reference

/-- The reasons the machine stops with a fault. -/
inductive Fault where
  /-- Raised by an `APPLY` whose pattern turns on both switches of a leg, before any write (40_coil_driver R105,
  60_exceptions R195). SAFE: on the hardware the supply is shorted, and nothing is provable of such a run. -/
  | shootThrough
  deriving DecidableEq, Repr

/-- The reasons an operation has no meaning. -/
inductive Refusal where
  /-- The instruction has no meaning in this model yet. SAFE. -/
  | notModelled (mnemonic : String)
  /-- A reserved command word (30_encoding R86), or an operation issued where R84, R87 and R187 do not let it be issued
  (R174, R197). Raised by the step on decoding and by every meaning's issue check. SAFE. -/
  | reservedEncoding
  /-- `APPLY` or `BRAKE` from the foreground while `RUN = Running` (60_exceptions R196, 70_reset R222). SAFE. -/
  | foregroundDriveWhileRunning
  /-- The configuration is not well-formed (00_scope R15, 60_exceptions R197). Raised by the step. SAFE. -/
  | badConfig
  deriving DecidableEq, Repr

/-- The outcome of an operation or a step. -/
abbrev Out := Host.Outcome State Fault Refusal

end Sys2Proof.Machine
end

