-- ==== Sys2Proof/Machine/Operands.lean ====
section
/-! DEFINITION. Everything the rules compute that does not change the state: the sign of a rotation, legality, the phase
tables, the table index, milestone classification, the well-formedness of a configuration, register ranges. -/

namespace Sys2Proof.Machine

/-- R19, R73: CW = +1, CCW = -1. -/
def sign : Rotation → Int
  | .cw => 1
  | .ccw => -1

/-- The other rotation (43_milestone R166). -/
def opposite : Rotation → Rotation
  | .cw => .ccw
  | .ccw => .cw

/-- R72: no leg has its high-side and its low-side switch both on. -/
def legal (p : Pattern) : Bool := p.extractLsb' 4 4 &&& p.extractLsb' 0 4 == 0

/-- R81: all four low-side switches on, all high-side off. -/
def shortBrake : Pattern := 0x0F

/-- `PHASE_PATTERN(X)` (R13). -/
def phasePattern (c : Config) : Phase → Pattern
  | .a => c.phasePattern.a
  | .b => c.phasePattern.b
  | .c => c.phasePattern.c
  | .d => c.phasePattern.d

/-- R15, R76: the bitwise OR of the phases' patterns. -/
def pat (c : Config) (phases : List Phase) : Pattern := phases.foldr (fun x p => phasePattern c x ||| p) 0

/-- `TABLE_LEN(m)` (R6). -/
def tableLen : DriveMode → Nat
  | .wave => 4
  | .fullStep => 4
  | .halfStep => 8

/-- The phase tables (R77, R78, R79), index 0 first. -/
def phaseTable : DriveMode → List (List Phase)
  | .wave => [[.a], [.b], [.c], [.d]]
  | .fullStep => [[.a, .b], [.b, .c], [.c, .d], [.d, .a]]
  | .halfStep => [[.a], [.a, .b], [.b], [.b, .c], [.c], [.c, .d], [.d], [.d, .a]]

/-- `TABLE(m)[i]` as a pattern (R80); a table index is always in range (R120), so the default is never met. -/
def tableEntry (c : Config) (m : DriveMode) (i : Nat) : Pattern := pat c ((phaseTable m).getD i [])

/-- R17, R120: `emod(n, L)`. -/
def tableIndex (n : Int) (l : Nat) : Nat := (n % (l : Int)).toNat

/-- The entry that step index `n` selects in mode `m` (R121: the index BEFORE the increment). -/
def selected (c : Config) (m : DriveMode) (n : Int) : Pattern := tableEntry c m (tableIndex n (tableLen m))

/-- The phase pointer `PHASE = emod(STEP, L)`, a derived value (10_state R24). -/
def State.phase (s : State) : Nat := tableIndex s.step (tableLen s.cfg.mode)

/-- R160: `classify(a)`. -/
def classify (c : Config) (a : Int) : Action :=
  if a = 0 then (if c.homeVariant then .homeAndReport else .stopAndReport)
  else if a = c.unit then .stopAndReport
  else if a = 10 * (c.unit : Int) then .reverseAndReport
  else .none

/-- R15: the four conditions on a configuration. -/
def configOk (c : Config) : Bool :=
  1 ≤ c.unit && 10 * c.unit < 2 ^ (c.stepWidth - 1)
    && [Phase.a, .b, .c, .d].all (fun x => legal (phasePattern c x))
    && (phaseTable c.mode).all (fun phases => legal (pat c phases))

/-- Whether an integer is a value of a `w`-bit two's-complement register (R11). -/
def inRegister (w : Nat) (n : Int) : Bool := -(2 ^ (w - 1) : Int) ≤ n && n < (2 ^ (w - 1) : Int)

/-- `abs(STEP)` (R19, R162). `abs` of the register's most negative value is not representable (R19): a FREE VALUE
(notes/assumptions/7.md). -/
def State.magnitude (s : State) : Int :=
  if s.step = -(2 ^ (s.cfg.stepWidth - 1) : Int) then (Config.freeAbs s.cfg.stepWidth).toInt
  else (s.step.natAbs : Int)

/-- `classify(abs(STEP))` (R162, R163). -/
def State.milestone (s : State) : Action := classify s.cfg s.magnitude

/-- Insert `x` at place `n`, at the end if the list is shorter. -/
def insertAt {α : Type} : Nat → α → List α → List α
  | 0, x, l => x :: l
  | _ + 1, x, [] => [x]
  | n + 1, x, y :: ys => y :: insertAt n x ys

/-- The order of `l` that number `k` stands for; every order is some number's (R55, R104). -/
def permute {α : Type} : Nat → List α → List α
  | _, [] => []
  | _, [x] => [x]
  | k, x :: y :: ys => insertAt (k % (ys.length + 2)) x (permute (k / (ys.length + 2)) (y :: ys))

/-- The numbers of a list, each once, in order of first appearance from the end. -/
def distinct : List Nat → List Nat
  | [] => []
  | x :: xs => if x ∈ xs then distinct xs else x :: distinct xs

/-- The port of each switch bit, bit 0 first (R71). -/
def portList (m : PortMap) : List Nat := [m.ld, m.lc, m.lb, m.la, m.hd, m.hc, m.hb, m.ha]

/-- The pattern with exactly bit `b` set. -/
def bitMask (b : Nat) : Pattern := 1#8 <<< b

/-- The switch bits on port `q`, of a list of ports that begins at bit `b`. -/
def portMaskFrom (q : Nat) : Nat → List Nat → Pattern
  | _, [] => 0
  | b, r :: rs => (if r = q then bitMask b else 0) ||| portMaskFrom q (b + 1) rs

/-- One mask for each port that holds a switch (R54); one mask of all eight bits when there is one port. -/
def portGroups (m : PortMap) : List Pattern := (distinct (portList m)).map (fun q => portMaskFrom q 0 (portList m))

/-- The bit numbers where pattern `p` holds `v` (R104). -/
def bitsAt (p : Pattern) (v : Bool) : List Nat := [0, 1, 2, 3, 4, 5, 6, 7].filter (fun b => p.getLsbD b == v)

/-- One set-bits or reset-bits write of `mask` (R54): one write for each port that holds a switch, of the part of the mask
on it, in the order of number `k`; a single write of the whole mask when there is one port. That a port is written where
its part is empty is the model's reading (notes/assumptions/24.md). -/
def portWrites (c : Config) (k : Nat) (write : Pattern → WriteRec) (mask : Pattern) : List WriteRec :=
  (permute k (portGroups c.portOf)).map (fun g => write (mask &&& g))

/-- Step 1 of `APPLY p` (R101, R104; per port R54), in the order of number `k`. -/
def offWrites (c : Config) (k : Nat) (p : Pattern) : List WriteRec :=
  match c.granularity with
  | .bulk => portWrites c k .off (~~~p)
  | .perPin => (permute k (bitsAt p false)).map (fun b => .pin b false)

/-- Step 3 of `APPLY p` (R103, R104; per port R54), in the order of number `k`. -/
def onWrites (c : Config) (k : Nat) (p : Pattern) : List WriteRec :=
  match c.granularity with
  | .bulk => portWrites c k .on p
  | .perPin => (permute k (bitsAt p true)).map (fun b => .pin b true)

/-- The writes of one `APPLY p` that writes: off, gap, on (R100, R104, R110). -/
def switchPlan (c : Config) (kOff kOn : Nat) (p : Pattern) : List WriteRec :=
  offWrites c kOff p ++ .gap :: onWrites c kOn p

/-- What one record's write makes of the latch: reset-bits (R101), set-bits (R103), one bit (R104), nothing (R102). -/
def writeLatch (l : Pattern) : WriteRec → Pattern
  | .off mask => l &&& ~~~mask
  | .on mask => l ||| mask
  | .pin b v => if v then l ||| bitMask b else l &&& ~~~(bitMask b)
  | .gap => l

/-- The latch after a list of writes. -/
def writesLatch (l : Pattern) (ws : List WriteRec) : Pattern := ws.foldl writeLatch l

end Sys2Proof.Machine
end

