-- ==== Sys2Proof/Machine/Flags.lean ====
section
/-! DEFINITION. The block's one flag, `RUN` (10_state R25), and the timer's pending flag that stands beside it
(60_exceptions R181): the transitions Running to Stopped and back, and the event of an elapsed period. -/

namespace Sys2Proof.Machine

/-- `TimerStop()` (42_motion R144): `RUN <- Stopped`, and a pending period is discarded. -/
def State.stopTimer (s : State) : State := { s with run := .stopped, tickPending := false }

/-- `TimerStart()` (42_motion R145): `RUN <- Running`. -/
def State.startTimer (s : State) : State := { s with run := .running }

/-- A period elapses: remembered in the single pending flag while `Running` (R181), not remembered while `Stopped`
(R143). -/
def State.elapse (s : State) : State :=
  if s.run = .running then { s with tickPending := true } else s

/-- The stop check of a `TICK` (R140): stop when the position is a milestone. -/
def State.stopCheck (s : State) : State := if s.milestone = .none then s else s.stopTimer

end Sys2Proof.Machine
end

