-- ==== Sys2Proof/Machine/Ops.lean ====
section
/-! DEFINITION. The named operations over the state that the meanings are built from: writing the latch and its trace,
the shared `APPLY`, storing `STEP`, the calls of a milestone action, the issue checks, and entering and leaving the
interrupt. -/

namespace Sys2Proof.Machine

/-- Go on with the next state; a fault or a refusal stands. -/
def andThen (o : Out) (k : State → Out) : Out :=
  match o with
  | .next s => k s
  | .fault r => .fault r
  | .refused r => .refused r

/-- An operation that only the contexts `cs` may issue; from any other it is refused (R84, R87, R174, R187, R197). -/
def State.issuedBy (s : State) (cs : List Ctx) (o : Out) : Out :=
  if s.ctx ∈ cs then o else .refused .reservedEncoding

/-- Which context may drive the coils (20_memory R60 (c), R187): the foreground, by `APPLY` or inside its `BRAKE`, only
while `Stopped` (R196, R222); the `ADV.m` of a `TICK` only while `Running`, since no `TICK` occurs while `Stopped`
(R60 (a), R143; notes/assumptions/13.md). -/
def State.driveAllowed (s : State) (o : Out) : Out :=
  match s.run with
  | .running => if s.ctx = .foreground ∨ s.ctx = .inside .brake then .refused .foregroundDriveWhileRunning else o
  | .stopped => if s.ctx = .inside .adv then .refused .reservedEncoding else o

/-- Taking the timer interrupt (60_exceptions R181, R184): the pending flag is cleared, nothing is saved or changed, and
control goes to the one handler `TICK` in the interrupt context (R182, R187). -/
def State.enterInterrupt (s : State) : State := { s with tickPending := false, ctx := .timer }

/-- The return from the handler (R185): the foreground goes on, and nothing is restored. -/
def State.leaveInterrupt (s : State) : State := { s with ctx := .foreground }

/-- One write of the Coil Driver, or the dead-time gap: the latch, and its record in the write trace
(00_scope section 6: `LatchClear`, `LatchSet`, `PinWrite`, `DeadTime`). -/
def State.perform (s : State) (r : WriteRec) : State :=
  { s with latch := writeLatch s.latch r, trace := s.trace ++ [r] }

/-- Writes one after another (20_memory R61). -/
def State.performAll (s : State) (rs : List WriteRec) : State := rs.foldl State.perform s

/-- `LatchClear(mask)` or `LatchSet(mask)` (00_scope section 6), port by port (R54); the order left open is drawn from the
free values (notes/assumptions/5.md). -/
def State.writePorts (s : State) (write : Pattern → WriteRec) (mask : Pattern) : State :=
  { s.performAll (portWrites s.cfg (Config.freeOrder s.free) write mask) with free := s.free + 1 }

/-- The writes that an `APPLY p` at `s` makes; the orders left open are drawn from the free values (R104). -/
def State.plan (s : State) (p : Pattern) : List WriteRec :=
  switchPlan s.cfg (Config.freeOrder s.free) (Config.freeOrder (s.free + 1)) p

/-- `APPLY p` of a legal pattern (R100, R104): nothing when the latch already holds `p` (R109), else the three steps. -/
def State.drive (s : State) (p : Pattern) : State :=
  if s.latch = p then s else { s.performAll (s.plan p) with free := s.free + 2 }

/-- `APPLY p` (R100): an illegal pattern faults before any write (R105). -/
def State.applyPattern (s : State) (p : Pattern) : Out :=
  if legal p then .next (s.drive p) else .fault .shootThrough

/-- The value an operation returns to its issuer. -/
def State.answer (s : State) (r : Ret) : State := { s with ret := r }

/-- `ADV.m` (41_phase R121): apply the entry of the current index, return the next index and the pattern. -/
def State.advance (s : State) (m : DriveMode) : Out :=
  andThen (s.applyPattern (selected s.cfg m s.step))
    (fun s1 => .next (s1.answer (.adv (s.step + sign s.rot) (selected s.cfg m s.step))))

/-- `ADV.m` as an operation of its own: only as a sub-step of `TICK`, so only while `Running` (20_memory R60 (a), R143;
notes/assumptions/13.md), and only of the mode the device is built with (30_encoding R87). -/
def State.advanceAs (s : State) (m : DriveMode) : Out :=
  s.issuedBy [.inside .tick]
    (if s.run = .running ∧ s.cfg.mode = m then s.advance m else .refused .reservedEncoding)

/-- `STEP <- n`. A value the `W`-bit register cannot hold leaves a FREE VALUE in it (notes/assumptions/6.md). -/
def State.storeStep (s : State) (n : Int) : State :=
  if inRegister s.cfg.stepWidth n then { s with step := n }
  else { s with step := (Config.freeStep s.cfg.stepWidth s.free).toInt, free := s.free + 1 }

/-- `Report(kind, ROT, mag)` (R168): an event whose result is ignored. -/
def State.report (s : State) (kind : Action) (mag : Int) : State :=
  { s with calls := s.calls ++ [.report kind s.rot mag] }

/-- `Dwell(DWELL_MS)` (R165): time only. -/
def State.dwell (s : State) : State := { s with calls := s.calls ++ [.dwell s.cfg.dwellMs] }

/-- `ROT` flipped (R166). -/
def State.flip (s : State) : State := { s with rot := opposite s.rot }

/-- The action `a` (R164 to R167): report, dwell, resume; `ReverseAndReport` flips the rotation first. -/
def State.runAction (s : State) : Action → State
  | .none => s
  | .stopAndReport => ((s.report .stopAndReport s.magnitude).dwell).startTimer
  | .reverseAndReport => ((s.flip.report .reverseAndReport s.magnitude).dwell).startTimer
  | .homeAndReport => ((s.report .homeAndReport 0).dwell).startTimer

/-- `ACT.a` as an operation of its own: only as a sub-step of `POLL`, and a reporting action only while `Stopped`
(R87, R187, R224). That `ACT.NONE`, which touches nothing, runs while `Running` too, when no `POLL` would issue it, is a
DESIGN CHOICE (notes/assumptions/27.md), and so is that an `ACT.a` runs whether or not `CLASSIFY` would select it
(notes/assumptions/28.md). -/
def State.actAs (s : State) (a : Action) : Out :=
  s.issuedBy [.inside .poll]
    (if a ≠ .none ∧ s.run = .running then .refused .reservedEncoding else .next (s.runAction a))

/-- Power-on (R210): the reset values; the configuration, the events still to come and the count of free values drawn are
no registers of the block. -/
def State.powerCycle (s : State) : State := { State.powerOn s.cfg with inbox := s.inbox, free := s.free }

end Sys2Proof.Machine
end

