-- ==== Sys2Proof/Machine/CoilDriver.lean ====
section
/-! DEFINITION. The Coil Driver operations (40_coil_driver): APPLY, BRAKE, OFFW, ONW, DT, PINW, RDLATCH. -/

namespace Sys2Proof.Machine

/-- `APPLY p` (R100, R105), inside `ADV.m` while running, or inside `BRAKE` or from the foreground while stopped (R84,
R89, R222). That it runs there with any pattern, also one its parent would not issue, is a DESIGN CHOICE
(notes/assumptions/28.md). -/
def execApply (p : Pattern) (s : State) : Out :=
  s.issuedBy [.foreground, .inside .adv, .inside .brake] (s.driveAllowed (s.applyPattern p))

/-- `BRAKE` (R107): `APPLY 0x0F`. -/
def execBrake (s : State) : Out :=
  s.issuedBy [.foreground] (s.driveAllowed (s.applyPattern shortBrake))

/-- `OFFW mask` (R101; several ports R54), inside `APPLY`. -/
def execOffw (mask : Pattern) (s : State) : Out :=
  s.issuedBy [.inside .apply] (.next (s.writePorts .off mask))

/-- `ONW mask` (R103; several ports R54), inside `APPLY`. -/
def execOnw (mask : Pattern) (s : State) : Out :=
  s.issuedBy [.inside .apply] (.next (s.writePorts .on mask))

/-- `DT` (R102), inside `APPLY`: the gap, no state. -/
def execDt (s : State) : Out :=
  s.issuedBy [.inside .apply] (.next (s.perform .gap))

/-- `PINW b, v` (R104), inside `APPLY` when the write granularity is `per_pin` (R84). A bit number above 7 is no
operation (notes/assumptions/22.md). -/
def execPinw (b : Nat) (v : Bool) (s : State) : Out :=
  s.issuedBy [.inside .apply]
    (if s.cfg.granularity = .perPin ∧ b < 8 then .next (s.perform (.pin b v)) else .refused .reservedEncoding)

/-- `RDLATCH` (R108), inside `APPLY` or from the foreground: what the hardware holds now. -/
def execRdlatch (s : State) : Out :=
  s.issuedBy [.foreground, .inside .apply] (.next (s.answer (.latch s.latch)))

end Sys2Proof.Machine
end

