-- ==== Sys2Proof/Machine/MilestoneDispatcher.lean ====
section
/-! DEFINITION. The Milestone Dispatcher operations (43_milestone_dispatcher): CLASSIFY, POLL, ACT.NONE, ACT.STOP,
ACT.REV, ACT.HOME. -/

namespace Sys2Proof.Machine

/-- `CLASSIFY` (R160), inside `TICK` or `POLL`: a function of `abs(STEP)` (R162). That it runs inside `TICK` while
`Stopped` and inside `POLL` while `Running`, when no such parent goes on, is a DESIGN CHOICE
(notes/assumptions/27.md). -/
def execClassify (s : State) : Out :=
  s.issuedBy [.inside .tick, .inside .poll] (.next (s.answer (.action s.milestone)))

/-- `POLL` (R163), from the foreground: nothing while `Running`, else the action of the milestone. -/
def execPoll (s : State) : Out :=
  s.issuedBy [.foreground] (.next (if s.run = .running then s else s.runAction s.milestone))

/-- `ACT.NONE` (R164). -/
def execActNone (s : State) : Out := s.actAs .none

/-- `ACT.STOP` (R165). -/
def execActStop (s : State) : Out := s.actAs .stopAndReport

/-- `ACT.REV` (R166). -/
def execActRev (s : State) : Out := s.actAs .reverseAndReport

/-- `ACT.HOME` (R167): it exists only when `HOME_VARIANT` is true. -/
def execActHome (s : State) : Out :=
  if s.cfg.homeVariant then s.actAs .homeAndReport else .refused .reservedEncoding

end Sys2Proof.Machine
end

