-- ==== Sys2Proof/Machine/MotionStateMachine.lean ====
section
/-! DEFINITION. The Motion State Machine operations (42_motion_state_machine): TICK, STOP, RESUME, RDSTEP. -/

namespace Sys2Proof.Machine

/-- `TICK` (R140), issued by the timer: apply the entry of the old index, store the new one, check it for a milestone,
return. While `Stopped` the event is ignored (R90, R143). -/
def execTick (s : State) : Out :=
  s.issuedBy [.timer]
    (if s.run = .stopped then .next s.leaveInterrupt
     else andThen (s.applyPattern (selected s.cfg s.cfg.mode s.step))
       (fun s1 => .next ((s1.storeStep (s.step + sign s.rot)).stopCheck.leaveInterrupt)))

/-- `STOP` (R144), inside `TICK`. That it runs there off a milestone too is a DESIGN CHOICE (notes/assumptions/28.md). -/
def execStop (s : State) : Out := s.issuedBy [.inside .tick] (.next s.stopTimer)

/-- `RESUME` (R145), inside a reporting action. That it runs there whatever the position, in the stuck state too, is a
DESIGN CHOICE (notes/assumptions/28.md). -/
def execResume (s : State) : Out := s.issuedBy [.inside .act] (.next s.startTimer)

/-- `RDSTEP` (R146), from the foreground, also as the first access of `POLL` (R163): the whole register. That it runs
inside `POLL` while `Running`, when a `POLL` has already returned, is a DESIGN CHOICE (notes/assumptions/27.md). -/
def execRdstep (s : State) : Out :=
  s.issuedBy [.foreground, .inside .poll] (.next (s.answer (.step s.step)))

end Sys2Proof.Machine
end

