-- ==== Sys2Proof/Machine/PhaseSequencer.lean ====
section
/-! DEFINITION. The Phase Sequencer operations (41_phase_sequencer): ADV.WAVE, ADV.FULL, ADV.HALF. -/

namespace Sys2Proof.Machine

/-- `ADV.WAVE` (R121, R122). -/
def execAdvWave (s : State) : Out := s.advanceAs .wave

/-- `ADV.FULL` (R121, R123). -/
def execAdvFull (s : State) : Out := s.advanceAs .fullStep

/-- `ADV.HALF` (R121, R124). -/
def execAdvHalf (s : State) : Out := s.advanceAs .halfStep

end Sys2Proof.Machine
end

