-- ==== Sys2Proof/Machine/Dispatch.lean ====
section
/-! DEFINITION. One arm for each operation of the opcode table. -/

namespace Sys2Proof.Machine

def exec (i : Instr) (s : State) : Host.Outcome State Fault Refusal :=
  match i with
  | .tick => Sys2Proof.Machine.execTick s
  | .advWave => Sys2Proof.Machine.execAdvWave s
  | .advFull => Sys2Proof.Machine.execAdvFull s
  | .advHalf => Sys2Proof.Machine.execAdvHalf s
  | .apply p => Sys2Proof.Machine.execApply p s
  | .brake => Sys2Proof.Machine.execBrake s
  | .offw mask => Sys2Proof.Machine.execOffw mask s
  | .onw mask => Sys2Proof.Machine.execOnw mask s
  | .dt => Sys2Proof.Machine.execDt s
  | .stop => Sys2Proof.Machine.execStop s
  | .resume => Sys2Proof.Machine.execResume s
  | .classify => Sys2Proof.Machine.execClassify s
  | .poll => Sys2Proof.Machine.execPoll s
  | .actNone => Sys2Proof.Machine.execActNone s
  | .actStop => Sys2Proof.Machine.execActStop s
  | .actRev => Sys2Proof.Machine.execActRev s
  | .actHome => Sys2Proof.Machine.execActHome s
  | .rdstep => Sys2Proof.Machine.execRdstep s
  | .rdlatch => Sys2Proof.Machine.execRdlatch s
  | .pinw b v => Sys2Proof.Machine.execPinw b v s

end Sys2Proof.Machine
end

