-- ==== Sys2Proof/WellFormed.lean ====
section
/-! DEFINITION. Which instruction terms are operations of the block: every pattern is a syntactically valid operand
(30_encoding R87), and `PINW` names a bit 0 to 7 of the latch (40_coil_driver R104). -/

namespace Sys2Proof

/-- The one operand check of the syntax: a bit number of the latch is 0 to 7 (R104, format B of R83). -/
def Instr.wf : Instr → Bool
  | .pinw b _ => b < 8
  | .tick | .advWave | .advFull | .advHalf | .apply _ | .brake | .offw _ | .onw _ | .dt | .stop | .resume
  | .classify | .poll | .actNone | .actStop | .actRev | .actHome | .rdstep | .rdlatch => true

end Sys2Proof
end

