-- ==== Sys2Proof/Decode.lean ====
section
/-! DEFINITION. The binary encodings of 30_encoding: the enumerations (R73 to R75), the decoder of command words (R83 to
R86), total and refusing every reserved word, the host's reading of an opcode-table word, and the encoder. -/

namespace Sys2Proof

/-- R73: CW = 0, CCW = 1. -/
def Rotation.toBit : Rotation → Bool
  | .cw => false
  | .ccw => true

/-- R75: Stopped = 0, Running = 1. -/
def MotionState.toBit : MotionState → Bool
  | .stopped => false
  | .running => true

/-- R74: Wave = 0, FullStep = 1, HalfStep = 2. -/
def DriveMode.toBits : DriveMode → BitVec 2
  | .wave => 0
  | .fullStep => 1
  | .halfStep => 2

/-- R74, R86: the value 3 is reserved, and refused. -/
def DriveMode.ofBits (b : BitVec 2) : Option DriveMode :=
  match b.toNat with
  | 0 => some .wave
  | 1 => some .fullStep
  | 2 => some .halfStep
  | _ => none

/-- R75: the source's listing order. -/
def Action.toBits : Action → BitVec 2
  | .none => 0
  | .stopAndReport => 1
  | .reverseAndReport => 2
  | .homeAndReport => 3

/-- R75: every 2-bit value is an action. -/
def Action.ofBits (b : BitVec 2) : Action :=
  match b.toNat with
  | 0 => .none
  | 1 => .stopAndReport
  | 2 => .reverseAndReport
  | _ => .homeAndReport

/-- The operation `ADV.m` of a drive mode. -/
def Instr.ofMode : DriveMode → Instr
  | .wave => .advWave
  | .fullStep => .advFull
  | .halfStep => .advHalf

/-- The operation `ACT.a` of an action. -/
def Instr.ofAction : Action → Instr
  | .none => .actNone
  | .stopAndReport => .actStop
  | .reverseAndReport => .actRev
  | .homeAndReport => .actHome

/-- Format N (R83, R85): the operand field is 0. -/
def formatN (f : BitVec 8) (i : Instr) : Option Instr := if f = 0 then some i else none

/-- Format M (R83, R85): `0000 00mm`, and no fourth drive mode (R86). -/
def formatM (f : BitVec 8) : Option Instr :=
  if f.extractLsb' 2 6 = 0 then (DriveMode.ofBits (f.extractLsb' 0 2)).map Instr.ofMode else none

/-- Format A (R83, R85): `0000 00aa`. -/
def formatA (f : BitVec 8) : Option Instr :=
  if f.extractLsb' 2 6 = 0 then some (Instr.ofAction (Action.ofBits (f.extractLsb' 0 2))) else none

/-- Format B (R83, R85): `0000 bbbv`. -/
def formatB (f : BitVec 8) : Option Instr :=
  if f.extractLsb' 4 4 = 0 then some (.pinw (f.extractLsb' 1 3).toNat (f.getLsbD 0)) else none

/-- The decoder: by `cmd[11:8]` first (R84), then by the operand field (R85); `none` is a reserved word (R86). -/
def decode (w : CmdWord) : Option Instr :=
  let f : BitVec 8 := w.extractLsb' 0 8
  match (w.extractLsb' 8 4).toNat with
  | 0x1 => formatN f .tick
  | 0x2 => formatM f
  | 0x3 => some (.apply f)
  | 0x4 => formatN f .brake
  | 0x5 => some (.offw f)
  | 0x6 => some (.onw f)
  | 0x7 => formatN f .dt
  | 0x8 => formatN f .stop
  | 0x9 => formatN f .resume
  | 0xA => formatN f .classify
  | 0xB => formatN f .poll
  | 0xC => formatA f
  | 0xD => formatN f .rdstep
  | 0xE => formatN f .rdlatch
  | 0xF => formatB f
  | _ => none

/-- An opcode-table word: its low `nbits` bits are the command word. A command word is 12 bits (R85), so a word with a bit
above bit 11 is none (notes/assumptions/19.md). -/
def decodeTableWord (nbits w : Nat) : Option Instr :=
  if w % 2 ^ nbits < 4096 then decode (BitVec.ofNat 12 (w % 2 ^ nbits)) else none

/-- A command word of an operation code and an operand field (R83). -/
def cmdWord (op : BitVec 4) (operand : BitVec 8) : CmdWord := op ++ operand

/-- The operand field of a drive mode (format M, R83). -/
def modeField (m : DriveMode) : BitVec 8 := 0#6 ++ m.toBits

/-- The operand field of an action (format A, R83). -/
def actionField (a : Action) : BitVec 8 := 0#6 ++ a.toBits

/-- The operand field of a bit number and a level (format B, R83). -/
def pinField (b : Nat) (v : Bool) : BitVec 8 := 0#4 ++ BitVec.ofNat 3 b ++ BitVec.ofBool v

/-- The command word of an operation (R84), written from the same tables as the decoder. -/
def encode : Instr → CmdWord
  | .tick => cmdWord 0x1 0
  | .advWave => cmdWord 0x2 (modeField .wave)
  | .advFull => cmdWord 0x2 (modeField .fullStep)
  | .advHalf => cmdWord 0x2 (modeField .halfStep)
  | .apply p => cmdWord 0x3 p
  | .brake => cmdWord 0x4 0
  | .offw m => cmdWord 0x5 m
  | .onw m => cmdWord 0x6 m
  | .dt => cmdWord 0x7 0
  | .stop => cmdWord 0x8 0
  | .resume => cmdWord 0x9 0
  | .classify => cmdWord 0xA 0
  | .poll => cmdWord 0xB 0
  | .actNone => cmdWord 0xC (actionField .none)
  | .actStop => cmdWord 0xC (actionField .stopAndReport)
  | .actRev => cmdWord 0xC (actionField .reverseAndReport)
  | .actHome => cmdWord 0xC (actionField .homeAndReport)
  | .rdstep => cmdWord 0xD 0
  | .rdlatch => cmdWord 0xE 0
  | .pinw b v => cmdWord 0xF (pinField b v)

end Sys2Proof
end

