-- ==== Sys2Proof/Machine/Issue.lean ====
section
/-! DEFINITION. What the machine does next: the taking of a pending period, of an agent's event or of a running
operation's next sub-step; and where an operation's word is placed so that it is taken next. -/

namespace Sys2Proof.Machine

/-- What is taken from the state. -/
inductive Taken where
  | idle
  | elapse (s : State)
  | rst (s : State)
  | issue (w : CmdWord) (s : State)
  deriving DecidableEq, Repr

/-- The command word of `TICK` (R84), which the taken interrupt issues. -/
def tickWord : CmdWord := 0x100

/-- The state in which an operation issued by `c` runs; an operation of the timer is entered as the interrupt. -/
def State.issueAs (s : State) (c : Ctx) : State :=
  match c with
  | .timer => s.enterInterrupt
  | .foreground => { s with ctx := .foreground }
  | .inside p => { s with ctx := .inside p }

/-- The contexts of a `TICK`'s own sub-steps (R172). While `Running` an `APPLY` is a `TICK`'s (20_memory R60 (c)). -/
def Ctx.withinTick : Ctx → Bool
  | .inside .tick | .inside .adv | .inside .apply => true
  | .timer | .foreground | .inside .brake | .inside .poll | .inside .act => false

/-- Whether a `TICK` issued sub-step by sub-step is in progress: the next operation to come, whatever periods elapse
before it, is one of its sub-steps (notes/assumptions/9.md). Such a `TICK` never stores `STEP`
(notes/assumptions/30.md). -/
def tickGoesOn : List Event → Bool
  | .elapse :: rest => tickGoesOn rest
  | .issue c _ :: _ => c.withinTick
  | .rst :: _ => false
  | [] => false

/-- Whether the next event is the timer's own operation, which is the taken interrupt. -/
def tickIssued : List Event → Bool
  | .issue .timer _ :: _ => true
  | .issue .foreground _ :: _ | .issue (.inside _) _ :: _ | .elapse :: _ | .rst :: _ | [] => false

/-- Whether the timer interrupt is taken next: a period is pending and the interrupt is enabled (R181). It goes before
every foreground command and before the next access of a foreground operation (R183); a `TICK` in progress is not
interrupted by another (R185). -/
def State.interruptDue (s : State) : Bool :=
  s.tickPending && s.run == .running && !tickGoesOn s.inbox && !tickIssued s.inbox

/-- The next event of the inbox. An issued sub-step runs on its issuer's tag alone: that nothing checks whether its parent
is in progress, or would issue it next, is a DESIGN CHOICE (notes/assumptions/28.md). A `TICK` issued sub-step by sub-step
never stores `STEP`, a write that is no operation of its own (DESIGN CHOICE, notes/assumptions/30.md). -/
def State.takeEvent (s : State) : Taken :=
  match s.inbox with
  | [] => .idle
  | .elapse :: rest => .elapse { s with inbox := rest }
  | .rst :: rest => .rst { s with inbox := rest }
  | .issue c w :: rest => .issue w ({ s with inbox := rest }.issueAs c)

/-- What the machine does next. -/
def State.take (s : State) : Taken :=
  if s.interruptDue then .issue tickWord s.enterInterrupt else s.takeEvent

/-- Who may issue an operation (R84, R172). -/
def issuerOf : Instr → Ctx
  | .tick => .timer
  | .advWave | .advFull | .advHalf | .stop | .classify => .inside .tick
  | .apply _ => .inside .adv
  | .offw _ | .onw _ | .dt | .pinw _ _ => .inside .apply
  | .resume => .inside .act
  | .actNone | .actStop | .actRev | .actHome => .inside .poll
  | .brake | .poll | .rdstep | .rdlatch => .foreground

/-- What an operation's issue needs beside its word (R84, R87, R107, R143, R167, R187): the device built with its mode or
granularity or variant, the motion state it may run in (notes/assumptions/15.md). -/
def State.readyFor (s : State) : Instr → State
  | .advWave => { s with run := .running, cfg := { s.cfg with mode := .wave } }
  | .advFull => { s with run := .running, cfg := { s.cfg with mode := .fullStep } }
  | .advHalf => { s with run := .running, cfg := { s.cfg with mode := .halfStep } }
  | .pinw _ _ => { s with cfg := { s.cfg with granularity := .perPin } }
  | .tick | .apply _ => { s with run := .running }
  | .brake | .actStop | .actRev => { s with run := .stopped }
  | .actHome => { s with run := .stopped, cfg := { s.cfg with homeVariant := true } }
  | .poll | .rdstep | .rdlatch | .resume | .actNone => { s with tickPending := false }
  | .offw _ | .onw _ | .dt | .stop | .classify => s

/-- The state with a word issued by `c` before every other event. -/
def State.place (s : State) (c : Ctx) (w : CmdWord) : State := { s with inbox := .issue c w :: s.inbox }

end Sys2Proof.Machine
end

