-- ==== Sys2Proof/Machine/Step.lean ====
section
/-! DEFINITION. One step of the machine, and where the host places an opcode-table word. -/

namespace Sys2Proof.Machine

/-- One step: a configuration that is not well-formed is refused (R15, R197); with nothing scheduled the machine idles;
an elapsed period sets the pending flag; power-on resets; an issued word is decoded (R85, R86) and runs. -/
def step (s : State) : Host.Outcome State Fault Refusal :=
  if configOk s.cfg then
    match s.take with
    | .idle => .next s
    | .elapse s1 => .next s1.elapse
    | .rst s1 => .next s1.powerCycle
    | .issue w s1 =>
      match decode w with
      | none => .refused .reservedEncoding
      | some i => exec i s1
  else .refused .badConfig

/-- The state with an opcode-table word where `step` takes its next operation, issued by an agent or a parent that may
issue it (notes/assumptions/15.md); a word that is no operation is issued by the foreground as a reserved word. -/
def State.withFetchWord (s : State) (nbits w : Nat) : State :=
  match decodeTableWord nbits w with
  | some i => (s.readyFor i).place (issuerOf i) (BitVec.ofNat 12 (w % 2 ^ nbits))
  | none => { s with tickPending := false }.place .foreground 0x000

end Sys2Proof.Machine
end

