-- ==== Sys2Proof/Machine/Signals.lean ====
section
/-! DEFINITION. The output signals of the block (30_encoding R90): names for what the state already holds. The inputs
`tick`, `cmd` and `rst` are the events of Machine/State.lean. -/

namespace Sys2Proof.Machine

/-- `coil`: the latch, bit for bit. -/
def State.coil (s : State) : Pattern := s.latch

/-- `timer_en`: 1 while `Running`. -/
def State.timerEn (s : State) : Bool := s.run.toBit

/-- `step`: `STEP` in two's complement. -/
def State.stepOut (s : State) : BitVec s.cfg.stepWidth := BitVec.ofInt s.cfg.stepWidth s.step

/-- `rot`: the rotation bit. -/
def State.rotOut (s : State) : Bool := s.rot.toBit

/-- `report`: the action code, the rotation and the magnitude, of width `2 + 1 + W`; a dwell reports nothing. R90 gives
the parts and the width and no bit positions: that they stand in the order it lists them, the action code in the top
bits and the magnitude in the low `W`, is a DESIGN CHOICE (notes/assumptions/25.md). -/
def Call.payload (w : Nat) : Call → Option (BitVec (2 + 1 + w))
  | .report kind rot mag => some (kind.toBits ++ BitVec.ofBool rot.toBit ++ BitVec.ofInt w mag)
  | .dwell _ => none

end Sys2Proof.Machine
end

