-- ==== Sys2Proof/Machine/Trace.lean ====
section
/-! DEFINITION. How a run is written down: the sub-steps an operation expands to (44_operation_classes R172, 30_encoding
R84) and the written syntax of a trace (R88). -/

namespace Sys2Proof.Machine

/-- The sub-step that makes one record of the write trace. -/
def opOfWrite : WriteRec → Instr
  | .off mask => .offw mask
  | .on mask => .onw mask
  | .pin b v => .pinw b v
  | .gap => .dt

/-- The sub-steps of `APPLY p` at `s`: the read of the latch, then, when it differs, `OFFW`, `DT`, `ONW`, or a `PINW` for
each pin, `DT`, a `PINW` for each pin (R100, R104, R172). -/
def State.applyOps (s : State) (p : Pattern) : List Instr :=
  .rdlatch :: (if s.latch = p then [] else
    match s.cfg.granularity with
    | .bulk => [.offw (~~~p), .dt, .onw p]
    | .perPin => (s.plan p).map opOfWrite)

/-- Lines `depth` deep. -/
def linesAt (depth : Nat) (is : List Instr) : List (Nat × Instr) := is.map (fun i => (depth, i))

/-- `APPLY p` and its sub-steps, at `depth`. -/
def State.applyLines (s : State) (depth : Nat) (p : Pattern) : List (Nat × Instr) :=
  (depth, .apply p) :: linesAt (depth + 1) (s.applyOps p)

/-- `ADV.m` and its sub-steps, at `depth`. -/
def State.advLines (s : State) (depth : Nat) (m : DriveMode) : List (Nat × Instr) :=
  (depth, Instr.ofMode m) :: s.applyLines (depth + 1) (selected s.cfg m s.step)

/-- `ACT.a` and its sub-steps, at `depth`. -/
def actLines (depth : Nat) (a : Action) : List (Nat × Instr) :=
  (depth, Instr.ofAction a) :: (if a = .none then [] else [(depth + 1, .resume)])

/-- The state of a running `TICK` after its `ADV.m` and its write of `STEP` (R140). -/
def State.ticked (s : State) : State :=
  (s.drive (selected s.cfg s.cfg.mode s.step)).storeStep (s.step + sign s.rot)

/-- The sub-steps of a running `TICK`: `ADV.m`, `CLASSIFY`, and `STOP` at a milestone (R140, R172). -/
def State.tickLines (s : State) : List (Nat × Instr) :=
  s.advLines 1 s.cfg.mode ++ (1, .classify) :: (if s.ticked.milestone = .none then [] else [(1, .stop)])

/-- An operation issued at `s`, with the sub-steps it calls, each with its depth (R172). A `POLL` that goes on is written
with the calls R172 lists, `CLASSIFY` and `ACT.a`; that the `RDSTEP` of R163's comment stays unwritten is a DESIGN CHOICE
(notes/assumptions/26.md). So is that an operation which faults or is refused is written with the sub-steps its calls
list, though `exec` stops before them (notes/assumptions/29.md). -/
def State.expand (s : State) (i : Instr) : List (Nat × Instr) :=
  match i with
  | .tick => if s.run = .stopped then [] else (0, .tick) :: s.tickLines
  | .poll => (0, .poll) :: (if s.run = .running then [] else (1, .classify) :: actLines 1 s.milestone)
  | .brake => (0, .brake) :: s.applyLines 1 shortBrake
  | .apply p => s.applyLines 0 p
  | .advWave => s.advLines 0 .wave
  | .advFull => s.advLines 0 .fullStep
  | .advHalf => s.advLines 0 .halfStep
  | .actStop => actLines 0 .stopAndReport
  | .actRev => actLines 0 .reverseAndReport
  | .actHome => actLines 0 .homeAndReport
  | .actNone => actLines 0 .none
  | .offw mask => [(0, .offw mask)]
  | .onw mask => [(0, .onw mask)]
  | .dt => [(0, .dt)]
  | .stop => [(0, .stop)]
  | .resume => [(0, .resume)]
  | .classify => [(0, .classify)]
  | .rdstep => [(0, .rdstep)]
  | .rdlatch => [(0, .rdlatch)]
  | .pinw b v => [(0, .pinw b v)]

/-- One hexadecimal digit. -/
def hexDigit (n : Nat) : String :=
  ["0", "1", "2", "3", "4", "5", "6", "7", "8", "9", "A", "B", "C", "D", "E", "F"].getD n "?"

/-- A pattern in hexadecimal (R88). -/
def patternText (p : Pattern) : String := "0x" ++ hexDigit (p.toNat / 16) ++ hexDigit (p.toNat % 16)

/-- An operation as a trace writes it: mnemonic, then operands separated by commas (R88). -/
def instrText : Instr → String
  | .tick => "TICK"
  | .advWave => "ADV.WAVE"
  | .advFull => "ADV.FULL"
  | .advHalf => "ADV.HALF"
  | .apply p => "APPLY " ++ patternText p
  | .brake => "BRAKE"
  | .offw mask => "OFFW " ++ patternText mask
  | .onw mask => "ONW " ++ patternText mask
  | .dt => "DT"
  | .stop => "STOP"
  | .resume => "RESUME"
  | .classify => "CLASSIFY"
  | .poll => "POLL"
  | .actNone => "ACT.NONE"
  | .actStop => "ACT.STOP"
  | .actRev => "ACT.REV"
  | .actHome => "ACT.HOME"
  | .rdstep => "RDSTEP"
  | .rdlatch => "RDLATCH"
  | .pinw b v => "PINW " ++ hexDigit b ++ ", " ++ (if v then "1" else "0")

/-- The indentation of a sub-step (R88). -/
def indent : Nat → String
  | 0 => ""
  | n + 1 => "  " ++ indent n

/-- A trace, one operation a line, sub-steps indented under the operation they belong to (R88). -/
def traceText (lines : List (Nat × Instr)) : List String := lines.map (fun l => indent l.1 ++ instrText l.2)

end Sys2Proof.Machine
end

