-- ==== Sys2Proof/Safety.lean ====
section
/-! DEFINITION. What a good run is, in the terms the claims use: the invariant of the reachable states (10_state R36, R38,
42_motion R150), the one stuck state (60_exceptions R198), and runs of ticks and polls. -/

namespace Sys2Proof.Machine

/-- An event that an agent delivers: everything but a sub-step of a running operation (30_encoding R84, R87). -/
def Event.fromAgent : Event → Bool
  | .issue (.inside _) _ => false
  | _ => true

/-- `10 * U`, the reversal position (R160). -/
def State.limit (s : State) : Int := 10 * (s.cfg.unit : Int)

/-- The invariant of the states between operations of the agents. -/
structure State.Inv (s : State) : Prop where
  /-- R15. -/
  config : configOk s.cfg = true
  /-- R36. -/
  latchLegal : legal s.latch = true
  /-- R150. -/
  lower : -s.limit ≤ s.step
  /-- R150. -/
  upper : s.step ≤ s.limit
  /-- R150: at the limit and `Running`, the rotation points toward zero. -/
  inward : (s.step = s.limit ∨ s.step = -s.limit) → s.run = .running → sign s.rot * s.step < 0
  /-- At the limit and `Stopped`, the rotation still points outward: the action there has not run. -/
  outward : (s.step = s.limit ∨ s.step = -s.limit) → s.run = .stopped → 0 < sign s.rot * s.step
  /-- R38: the block stopped at a milestone. -/
  stoppedAtMilestone : s.run = .stopped → s.milestone ≠ .none
  /-- Every event still to come is an agent's. -/
  agentsOnly : s.inbox.all Event.fromAgent = true

/-- The one stuck state: `Stopped` at a position that is no milestone (R164, R198). -/
def State.stuck (s : State) : Bool := s.run == .stopped && s.milestone == .none

/-- All eight switches sit on one port, as bulk writes assume (20_memory R54). -/
def onOnePort (m : PortMap) : Bool := (portList m).all (fun q => q == m.ld)

/-- A run of operations, each issued by the given context. -/
def issueAll : List (Ctx × Instr) → State → Out
  | [], s => .next s
  | (c, i) :: rest, s => andThen (exec i (s.issueAs c)) (issueAll rest)

/-- `k` ticks, each taken by the timer. -/
def ticks : Nat → State → Out
  | 0, s => .next s
  | k + 1, s => andThen (exec .tick (s.issueAs .timer)) (ticks k)

/-- `k` turns of the two agents: a tick, then a poll (42_motion R151: a `POLL` after every stop; a `POLL` while `Running`
does nothing). -/
def turns : Nat → State → Out
  | 0, s => .next s
  | k + 1, s => andThen (exec .tick (s.issueAs .timer)) (fun s1 => andThen (exec .poll (s1.issueAs .foreground)) (turns k))

/-- The index that an `ADV.m` returned, given to the next call. -/
def State.takeReturned (s : State) : State :=
  match s.ret with
  | .adv n _ => { s with step := n }
  | .void | .step _ | .latch _ | .action _ => s

/-- `k` calls of `ADV.m`, each given the index the previous call returned (41_phase R125). -/
def advances (m : DriveMode) : Nat → State → Out
  | 0, s => .next s
  | k + 1, s =>
    andThen (exec (Instr.ofMode m) (s.issueAs (.inside .tick)))
      (fun s1 => advances m k s1.takeReturned)

end Sys2Proof.Machine
end

