-- ==== Sys2Proof/Certificates/Slice0/Obligations.lean ====
section
/-! DEFINITION. The statements for the provers, each over the rules of spec/ its docstring names. Where a statement rests
on a choice of the spec marked "decision" or of this model, the docstring says so. -/

open Sys2Proof Sys2Proof.Machine

/-! ### Encodings -/

/-- 30_encoding R83 to R85 (spec decision D13): no bit of an encoding is dropped. -/
def Obligations.DecodeOfEncodeIsIdentity : Prop :=
  ∀ i : Instr, i.wf = true → decode (encode i) = some i

/-- 30_encoding R83 to R85 (spec decision D13): a word decodes to at most the one operation that encodes to it, and that
operation is well-formed. -/
def Obligations.EncodeOfDecodeIsIdentity : Prop :=
  ∀ (w : CmdWord) (i : Instr), decode w = some i → encode i = w ∧ i.wf = true

/-- 30_encoding R86 (spec decision D14): exactly these words are reserved, and the reserved drive mode is no mode. -/
def Obligations.ReservedWordsAreRefused : Prop :=
  (∀ (op : BitVec 4) (f : BitVec 8), decode (op ++ f) = none ↔
    op = 0x0 ∨
    (op ∈ [0x1#4, 0x4, 0x7, 0x8, 0x9, 0xA, 0xB, 0xD, 0xE] ∧ f ≠ 0) ∨
    (op = 0x2 ∧ (f.extractLsb' 2 6 ≠ 0 ∨ f.extractLsb' 0 2 = 3)) ∨
    (op = 0xC ∧ f.extractLsb' 2 6 ≠ 0) ∨
    (op = 0xF ∧ f.extractLsb' 4 4 ≠ 0)) ∧
  DriveMode.ofBits 3 = none ∧
  (∀ (s : State) (c : Ctx) (w : CmdWord) (rest : List Event), configOk s.cfg = true → s.inbox = .issue c w :: rest →
    s.interruptDue = false → decode w = none → step s = .refused .reservedEncoding)

/-- 95_test_vectors section 2.7: words written out from the encodings. -/
def Obligations.SampleWordsDecodeAsTabled : Prop :=
  decode 0x100 = some .tick ∧ decode 0x202 = some .advHalf ∧ decode 0x3C3 = some (.apply 0xC3) ∧
  decode 0x53C = some (.offw 0x3C) ∧ decode 0xB00 = some .poll ∧ decode 0xC02 = some .actRev ∧
  decode 0xF0D = some (.pinw 6 true) ∧ decode 0xF0E = some (.pinw 7 false) ∧
  decode 0x203 = none ∧ decode 0x401 = none ∧ decode 0xC04 = none ∧ decode 0xF10 = none ∧ decode 0x000 = none

/-- 30_encoding R73, R74, R75 (spec decisions D7 to D10): the encodings of the enumerations. -/
def Obligations.EnumerationsHaveTheirCodes : Prop :=
  (Rotation.cw.toBit = false ∧ Rotation.ccw.toBit = true) ∧
  (MotionState.stopped.toBit = false ∧ MotionState.running.toBit = true) ∧
  (∀ m : DriveMode, DriveMode.ofBits m.toBits = some m) ∧
  (DriveMode.wave.toBits = 0 ∧ DriveMode.fullStep.toBits = 1 ∧ DriveMode.halfStep.toBits = 2) ∧
  (∀ b : BitVec 2, (Action.ofBits b).toBits = b) ∧
  (Action.none.toBits = 0 ∧ Action.stopAndReport.toBits = 1 ∧ Action.reverseAndReport.toBits = 2 ∧
    Action.homeAndReport.toBits = 3)

/-! ### Patterns, tables, the index, classification -/

/-- 30_encoding R72: a pattern is legal when no leg has both its switches on; 81 of the 256 are, among them all-off and
the short-brake. -/
def Obligations.LegalMeansNoLegHasBothSwitchesOn : Prop :=
  (∀ p : Pattern, legal p = true ↔ ∀ leg < 4, ¬(p.getLsbD (leg + 4) = true ∧ p.getLsbD leg = true)) ∧
  ((List.range 256).filter (fun n => legal (BitVec.ofNat 8 n))).length = 81 ∧
  legal 0x00 = true ∧ legal 0x0F = true

/-- 00_scope R17 and 41_phase R120: the table index is the non-negative residue, it is what the source's formula gives
under a truncating and under a flooring remainder, and it is periodic. -/
def Obligations.TableIndexIsTheNonNegativeResidue : Prop :=
  ∀ (n : Int) (l : Nat), 0 < l →
    tableIndex n l < l ∧ (l : Int) ∣ n - (tableIndex n l : Int) ∧
    (∀ r : Nat, r < l → (l : Int) ∣ n - (r : Int) → r = tableIndex n l) ∧
    tableIndex n l = tableIndex (n + (l : Int)) l ∧
    (tableIndex n l : Int) = Int.tmod (Int.tmod n l + l) l ∧
    (tableIndex n l : Int) = Int.fmod (Int.fmod n l + l) l

/-- 00_scope R18 (derived there): in a register of at least 3 bits the table index is the low 2 or 3 bits of `STEP`. -/
def Obligations.TableIndexIsTheLowBitsOfStep : Prop :=
  ∀ s : State, 3 ≤ s.cfg.stepWidth →
    tableIndex s.step 4 = (s.stepOut.extractLsb' 0 2).toNat ∧ tableIndex s.step 8 = (s.stepOut.extractLsb' 0 3).toNat

/-- 30_encoding R77, R78, R79: the three phase tables, for every assignment of patterns to phases; the half-step table
interleaves the other two. -/
def Obligations.PhaseTablesCycleInOrder : Prop :=
  ∀ (c : Config) (n : Int),
    (∀ (k : Nat) (x : Phase), (k, x) ∈ [(0, Phase.a), (1, .b), (2, .c), (3, .d)] → n % 4 = (k : Int) →
      selected c .wave n = phasePattern c x) ∧
    (∀ (k : Nat) (x y : Phase), (k, x, y) ∈ [(0, Phase.a, Phase.b), (1, .b, .c), (2, .c, .d), (3, .d, .a)] →
      n % 4 = (k : Int) → selected c .fullStep n = phasePattern c x ||| phasePattern c y) ∧
    selected c .halfStep (2 * n) = selected c .wave n ∧
    selected c .halfStep (2 * n + 1) = selected c .fullStep n

/-- 41_phase R126: the half-step table applied in order, with this hardware's phase patterns (spec decision D5;
notes/assumptions/12.md). -/
def Obligations.HalfStepSequenceOfThisHardware : Prop :=
  (List.range 9).map (fun j => selected Config.reference .halfStep (j : Int)) =
    [0x82, 0xC3, 0x41, 0x69, 0x28, 0x3C, 0x14, 0x96, 0x82]

/-- 43_milestone R160, R161: the classification, for every configuration whose unit is at least 1 (R15), and its values
for `U = 200`. -/
def Obligations.ClassifyMapsTheThreeMilestones : Prop :=
  (∀ (c : Config) (a : Int), 1 ≤ c.unit →
    (a = 0 → classify c a = if c.homeVariant then .homeAndReport else .stopAndReport) ∧
    (a = c.unit → classify c a = .stopAndReport) ∧
    (a = 10 * (c.unit : Int) → classify c a = .reverseAndReport) ∧
    (a ≠ 0 → a ≠ c.unit → a ≠ 10 * (c.unit : Int) → classify c a = .none)) ∧
  (∀ c : Config, c.unit = 200 →
    (c.homeVariant = true → classify c 0 = .homeAndReport) ∧
    (c.homeVariant = false → classify c 0 = .stopAndReport) ∧
    classify c 200 = .stopAndReport ∧ classify c 2000 = .reverseAndReport ∧
    (∀ a ∈ [(1 : Int), 199, 201, 400, 600, 900, 1000, 1800, 1999, 2001, 2200], classify c a = .none))

/-- 43_milestone R162: the sign of `STEP` plays no part in the action chosen. -/
def Obligations.MilestoneIgnoresTheSignOfStep : Prop :=
  ∀ s : State, -(2 ^ (s.cfg.stepWidth - 1) : Int) < s.step → s.step < (2 ^ (s.cfg.stepWidth - 1) : Int) →
    s.milestone = classify s.cfg |s.step| ∧ State.milestone { s with step := -s.step } = s.milestone

/-! ### Reset, fetching, the interrupt -/

/-- 10_state R33, R34, R35: the state after reset (0x00 in the latch is spec decision D11, the flag and the empty trace
D29). The other fields are the model's choice, notes/assumptions/2.md to 5.md. -/
def Obligations.ResetLeavesTheStatedValues : Prop :=
  State.reset.step = 0 ∧ State.reset.rot = Config.reference.initialRotation ∧ State.reset.rot = .cw ∧
  State.reset.run = .running ∧ State.reset.latch = 0x00 ∧ State.reset.tickPending = false ∧ State.reset.trace = [] ∧
  State.reset.cfg = Config.reference

/-- 10_state R33 to R35, 70_reset R210: power-on puts every register at its reset value at once, whatever it held. The
spec's decisions are 0x00 in the latch (D11; notes/assumptions/8.md) and the clear flag and empty trace (D29). The model's
choices are the foreground context, the void answer and the empty calls (notes/assumptions/3.md, 4.md, 17.md), and that
the configuration, the events still to come and the free-value count stay (notes/assumptions/20.md). -/
def Obligations.PowerOnResetsEveryRegister : Prop :=
  ∀ (s : State) (rest : List Event), configOk s.cfg = true → s.inbox = .rst :: rest → s.interruptDue = false →
    step s = .next { cfg := s.cfg, step := 0, rot := s.cfg.initialRotation, run := .running, latch := 0x00,
                     tickPending := false, ctx := .foreground, ret := .void, trace := [], calls := [], inbox := rest,
                     free := s.free }

/-- A step runs the decoded operation: an issued word is taken from the schedule, decoded (30_encoding R85), and executed
in its issuer's context; an operation of the timer is entered as the interrupt (60_exceptions R184). The schedule is the
model's (notes/assumptions/2.md), and its choices are that an operation the timer issues is the taken interrupt, which
runs though a period is pending and clears the flag (notes/assumptions/9.md), and that a sub-step runs on its issuer's
tag alone (notes/assumptions/28.md). -/
def Obligations.StepRunsTheIssuedOperation : Prop :=
  ∀ (s : State) (c : Ctx) (w : CmdWord) (rest : List Event) (i : Instr), configOk s.cfg = true →
    s.inbox = .issue c w :: rest → s.interruptDue = false → decode w = some i →
    step s = exec i { s with inbox := rest, ctx := c, tickPending := if c = .timer then false else s.tickPending }

/-- 60_exceptions R181 (spec decision D22), R183, R184: a pending period of an enabled timer is taken before any
foreground command and before the next access of a foreground operation; entry clears the flag and changes nothing else
of the block; it runs `TICK`. A `TICK` in progress is not interrupted by another (R185), and a second period that elapses
inside it is lost (70_reset R221). The flag as a field, that a pending period also goes before a scheduled power-on and
before a second period outside a `TICK`, and when a `TICK` is in progress, are the model's choices
(notes/assumptions/9.md), and so is that a sub-step runs on its issuer's tag alone (notes/assumptions/28.md). -/
def Obligations.PendingPeriodRunsTick : Prop :=
  ∀ s : State, configOk s.cfg = true → s.tickPending = true → s.run = .running →
    (tickGoesOn s.inbox = false → (∀ (w : CmdWord) (rest : List Event), s.inbox ≠ .issue .timer w :: rest) →
      step s = exec .tick { s with tickPending := false, ctx := .timer }) ∧
    (∀ (c : Ctx) (w : CmdWord) (rest : List Event) (i : Instr), c ∈ [.inside .tick, .inside .adv, .inside .apply] →
      s.inbox = .issue c w :: rest → decode w = some i → step s = exec i { s with inbox := rest, ctx := c }) ∧
    (∀ rest : List Event, tickGoesOn rest = true → s.inbox = .elapse :: rest → step s = .next { s with inbox := rest })

/-- 60_exceptions R181, 42_motion R143 (spec decision D22): an elapsed period is remembered in the one flag while
`Running`, and not while `Stopped`. The flag as a field is the model's choice, where R29 makes it no register
(notes/assumptions/9.md). -/
def Obligations.ElapsedPeriodIsRememberedOnlyWhileRunning : Prop :=
  ∀ (s : State) (rest : List Event), configOk s.cfg = true → s.inbox = .elapse :: rest → s.interruptDue = false →
    (s.run = .running → step s = .next { s with inbox := rest, tickPending := true }) ∧
    (s.run = .stopped → step s = .next { s with inbox := rest })

/-- 00_scope R15, 60_exceptions R197 (spec decision D26): a configuration that is not well-formed is refused, and nothing
else is refused so. -/
def Obligations.IllFormedConfigurationIsRefused : Prop :=
  (∀ c : Config, configOk c = true ↔
    (1 ≤ c.unit ∧ 10 * c.unit < 2 ^ (c.stepWidth - 1) ∧ (∀ x : Phase, legal (phasePattern c x) = true) ∧
      ∀ phases ∈ phaseTable c.mode, legal (pat c phases) = true)) ∧
  (∀ s : State, step s = .refused .badConfig ↔ configOk s.cfg = false)

/-- An opcode-table word that decodes is the very next operation to run, issued by who may issue it
(notes/assumptions/15.md): the model's own interface. -/
def Obligations.PlacedWordRunsNext : Prop :=
  ∀ (s : State) (nbits w : Nat) (i : Instr), decodeTableWord nbits w = some i → configOk (s.readyFor i).cfg = true →
    step (s.withFetchWord nbits w) = exec i ((s.readyFor i).issueAs (issuerOf i))

/-! ### Coil Driver -/

/-- 40_coil_driver R100: `APPLY p` where it may be issued (R84, R60, R222): an illegal pattern faults before any write
(R105, spec decision D17), an equal one writes nothing, any other goes through off-writes, gap, on-writes; the gap is
spent at `old & p`, the end is `p`, and nothing else of the block changes. On one port in bulk mode the writes are exactly
`OFFW ~p`, `DT`, `ONW p`. The model's choices are the draw of a free order (notes/assumptions/5.md), that the `RDLATCH`
of an `APPLY` leaves the answer field as it was (notes/assumptions/4.md), and that an `APPLY` inside `ADV.m` or
`BRAKE` runs with any pattern (notes/assumptions/28.md). -/
def Obligations.ApplyDrivesTheLatchToThePattern : Prop :=
  ∀ (s : State) (p : Pattern),
    (s.ctx = .inside .adv ∧ s.run = .running) ∨ ((s.ctx = .foreground ∨ s.ctx = .inside .brake) ∧ s.run = .stopped) →
    encode (.apply p) = 0x300#12 ||| p.setWidth 12 ∧
    (legal p = false → exec (.apply p) s = .fault .shootThrough) ∧
    (legal p = true → s.latch = p → exec (.apply p) s = .next s) ∧
    (legal p = true → s.latch ≠ p → ∃ offs ons : List WriteRec,
      exec (.apply p) s =
        .next { s with latch := p, trace := s.trace ++ offs ++ [.gap] ++ ons, free := s.free + 2 } ∧
      (s.performAll offs).latch = s.latch &&& p ∧
      (s.cfg.granularity = .bulk → onOnePort s.cfg.portOf = true → offs = [.off (~~~p)] ∧ ons = [.on p]))

/-- 40_coil_driver R110: the trace of one `APPLY p2` that writes, in bulk mode on one port (R54) and in per-pin mode;
every bit it clears is off before its gap. -/
def Obligations.OffWritesPrecedeTheGapAndOnWritesFollow : Prop :=
  ∀ (s t : State) (p2 : Pattern), exec (.apply p2) s = .next t → s.latch ≠ p2 →
    ∃ offs ons : List WriteRec, t.trace = s.trace ++ offs ++ [.gap] ++ ons ∧
      (s.cfg.granularity = .bulk → onOnePort s.cfg.portOf = true → offs = [.off (~~~p2)] ∧ ons = [.on p2]) ∧
      (s.cfg.granularity = .perPin →
        offs.Perm (((List.range 8).filter (fun b => !p2.getLsbD b)).map (fun b => .pin b false)) ∧
        ons.Perm (((List.range 8).filter (fun b => p2.getLsbD b)).map (fun b => .pin b true))) ∧
      (∀ b < 8, s.latch.getLsbD b = true → p2.getLsbD b = false → (s.performAll offs).latch.getLsbD b = false)

/-- 20_memory R54 (spec decision D15): with the switches on several ports, a bulk `APPLY`, an `OFFW` and an `ONW` make one
write for each port, in some order, and each switch is on exactly one port. That a port whose part of the mask is empty is
written too, and that `OFFW` and `ONW` split so in every granularity, is the model's reading (notes/assumptions/24.md).
That `OFFW` and `ONW` run in per-pin mode, and that a sub-step runs on its issuer's tag alone, are its choices
(notes/assumptions/13.md, 28.md). -/
def Obligations.BulkWritesGoPortByPort : Prop :=
  (∀ (m : PortMap), ∀ b < 8, ((portGroups m).filter (fun g => g.getLsbD b)).length = 1) ∧
  (∀ (s t : State) (p : Pattern), exec (.apply p) s = .next t → s.latch ≠ p → s.cfg.granularity = .bulk →
    ∃ offs ons : List WriteRec, t.trace = s.trace ++ offs ++ [.gap] ++ ons ∧
      offs.Perm ((portGroups s.cfg.portOf).map (fun g => .off (~~~p &&& g))) ∧
      ons.Perm ((portGroups s.cfg.portOf).map (fun g => .on (p &&& g)))) ∧
  (∀ (s : State) (mask : Pattern), s.ctx = .inside .apply →
    (∃ (t : State) (ws : List WriteRec), exec (.offw mask) s = .next t ∧ t.trace = s.trace ++ ws ∧
      ws.Perm ((portGroups s.cfg.portOf).map (fun g => .off (mask &&& g)))) ∧
    (∃ (t : State) (ws : List WriteRec), exec (.onw mask) s = .next t ∧ t.trace = s.trace ++ ws ∧
      ws.Perm ((portGroups s.cfg.portOf).map (fun g => .on (mask &&& g)))))

/-- 40_coil_driver R106 (derived there), 10_state R36: every value the latch takes during an `APPLY` is legal, in every
granularity, on any ports and in any order of the writes. -/
def Obligations.EveryInFlightLatchIsLegal : Prop :=
  ∀ (s : State) (p : Pattern), legal s.latch = true → legal p = true →
    ∀ k : Nat, legal (s.performAll ((s.plan p).take k)).latch = true

/-- 40_coil_driver R109: the second of two equal `APPLY`s does nothing, and one whose pattern the latch already holds adds
nothing to the trace. That the answer field stays as it was, though an `APPLY` reads the latch, is the model's choice
(notes/assumptions/4.md). -/
def Obligations.ApplyTwiceWritesOnce : Prop :=
  ∀ (s t : State) (p : Pattern), exec (.apply p) s = .next t →
    exec (.apply p) t = .next t ∧ (s.latch = p → t = s)

/-- 40_coil_driver R107 (spec decision D32), 30_encoding R81, R89: `BRAKE` is `APPLY 0x0F`; from the stopped foreground
it completes with all low-side switches on, touching neither `RUN`, `STEP` nor `ROT`.
That the answer field stays as it was is the model's choice (notes/assumptions/4.md). -/
def Obligations.BrakeAppliesTheShortBrake : Prop :=
  ∀ s : State, s.ctx = .foreground → s.run = .stopped →
    exec .brake s = exec (.apply 0x0F) s ∧
    ∃ t, exec .brake s = .next t ∧ t.latch = 0x0F ∧ t.step = s.step ∧ t.rot = s.rot ∧ t.run = s.run ∧
      t.tickPending = s.tickPending ∧ t.cfg = s.cfg ∧ t.ret = s.ret ∧ t.calls = s.calls ∧ t.inbox = s.inbox

/-- 40_coil_driver R103: `ONW mask` sets the mask's bits and no other, by one write on one port (several ports: R54,
`BulkWritesGoPortByPort`); `APPLY p` on one port in bulk mode issues it with the mask `p`. That it runs in per-pin mode,
with any mask and with no `OFFW` before it, is the model's choice (notes/assumptions/13.md, 28.md). -/
def Obligations.OnwSetsTheMaskedSwitches : Prop :=
  ∀ (s : State) (mask : Pattern),
    encode (.onw mask) = 0x600#12 ||| mask.setWidth 12 ∧
    (s.ctx = .inside .apply → ∃ t, exec (.onw mask) s = .next t ∧
      t = { s with latch := s.latch ||| mask, trace := t.trace, free := t.free } ∧
      (onOnePort s.cfg.portOf = true → t.trace = s.trace ++ [.on mask])) ∧
    (s.cfg.granularity = .bulk → onOnePort s.cfg.portOf = true → ∀ k, onWrites s.cfg k mask = [.on mask])

/-- 40_coil_driver R101 (spec decision D16): `OFFW mask` clears the mask's bits and no other, by one write on one port
(several ports: R54, `BulkWritesGoPortByPort`). That it runs in per-pin mode and with any mask is the model's choice
(notes/assumptions/13.md, 28.md). -/
def Obligations.OffwClearsTheMaskedSwitches : Prop :=
  ∀ (s : State) (mask : Pattern), s.ctx = .inside .apply →
    ∃ t, exec (.offw mask) s = .next t ∧ t = { s with latch := t.latch, trace := t.trace, free := t.free } ∧
      (onOnePort s.cfg.portOf = true → t.trace = s.trace ++ [.off mask]) ∧
      ∀ b < 8, t.latch.getLsbD b = (s.latch.getLsbD b && !mask.getLsbD b)

/-- 40_coil_driver R102: `DT` adds the gap to the trace and reads and writes no state; no bit number or mask is involved,
so it completes wherever `APPLY` issues it. That nothing checks that an `APPLY` would issue it next is the model's choice
(notes/assumptions/28.md). -/
def Obligations.DeadTimeOnlyMarksTheGap : Prop :=
  ∀ s : State, s.ctx = .inside .apply → exec .dt s = .next { s with trace := s.trace ++ [.gap] }

/-- 40_coil_driver R104 (spec decision D15): inside a per-pin `APPLY`, `PINW b, v` writes bit `b` and no other.
That nothing checks that the `APPLY` would issue it next is the model's choice (notes/assumptions/28.md). -/
def Obligations.PinwWritesOneSwitch : Prop :=
  ∀ (s : State) (b : Nat) (v : Bool), s.ctx = .inside .apply → s.cfg.granularity = .perPin → b < 8 →
    ∃ t, exec (.pinw b v) s = .next t ∧ t = { s with latch := t.latch, trace := s.trace ++ [.pin b v] } ∧
      ∀ i < 8, t.latch.getLsbD i = if i = b then v else s.latch.getLsbD i

/-- 40_coil_driver R108 and 42_motion R146: the two reads answer the whole register, of any latch and any `STEP`, and
change nothing. The model's choices are the field that holds the answer (notes/assumptions/4.md), `RDSTEP` inside `POLL`
while `Running` (notes/assumptions/27.md), and that a sub-step runs on its issuer's tag alone
(notes/assumptions/28.md). -/
def Obligations.ReadsAnswerTheRegister : Prop :=
  encode .rdlatch = 0xE00 ∧ encode .rdstep = 0xD00 ∧
  (∀ s : State, s.ctx = .foreground ∨ s.ctx = .inside .apply →
    exec .rdlatch s = .next { s with ret := .latch s.latch }) ∧
  (∀ s : State, s.ctx = .foreground ∨ s.ctx = .inside .poll →
    exec .rdstep s = .next { s with ret := .step s.step })

/-- 20_memory R56: reads have no side effect and may be repeated, and writing the latch twice is writing it once. -/
def Obligations.ReadsChangeNothingAndWritesAreIdempotent : Prop :=
  (∀ (i : Instr) (s t : State), i = .rdlatch ∨ i = .rdstep → exec i s = .next t →
    t = { s with ret := t.ret } ∧ exec i t = .next t) ∧
  (∀ (i : Instr) (s t u : State), (∃ m, i = .offw m ∨ i = .onw m) ∨ (∃ b v, i = .pinw b v) →
    exec i s = .next t → exec i t = .next u → u.latch = t.latch)

/-! ### Phase Sequencer -/

/-- 41_phase R121 (its instances R122 to R124): inside `TICK`, in the mode the device is built with, `ADV.WAVE`,
`ADV.FULL` and `ADV.HALF` apply the entry of the index before the increment, answer the next index and that pattern, and
write neither `STEP` nor `ROT`; in a well-formed configuration they do not fault. Nothing is written when the latch
already holds the pattern. The model's choices are the field that holds the answer and the count of drawn orders
(notes/assumptions/4.md, 5.md), that the sub-step runs on its issuer's tag alone (notes/assumptions/28.md), and its
reading that a `TICK`'s sub-step drives only while `Running` (notes/assumptions/13.md). -/
def Obligations.AdvanceAppliesTheEntryOfTheOldIndex : Prop :=
  encode .advWave = 0x200 ∧ encode .advFull = 0x201 ∧ encode .advHalf = 0x202 ∧
  ∀ (s : State) (i : Instr) (m : DriveMode) (len : Nat),
    (i, m, len) ∈ [(Instr.advWave, DriveMode.wave, 4), (.advFull, .fullStep, 4), (.advHalf, .halfStep, 8)] →
    s.ctx = .inside .tick → s.run = .running → s.cfg.mode = m → configOk s.cfg = true →
    ∀ p : Pattern, p = tableEntry s.cfg m (tableIndex s.step len) →
    (s.latch = p → exec i s = .next { s with ret := .adv (s.step + sign s.rot) p }) ∧
    (s.latch ≠ p → exec i s =
      .next { s with latch := p, trace := s.trace ++ s.plan p, free := s.free + 2, ret := .adv (s.step + sign s.rot) p })

/-- 41_phase R125: `k` chained calls of `ADV.m` move the index by `k` in the direction of the rotation, and the last
pattern applied is the entry of the index before the last call. `RUN = Running` is where a `TICK` issues them (R143). That
more than one runs inside a `TICK` is the model's choice (notes/assumptions/28.md). -/
def Obligations.ChainedAdvancesCountTheirCalls : Prop :=
  ∀ (k : Nat) (s : State), configOk s.cfg = true → s.run = .running →
    ∃ t, advances s.cfg.mode k s = .next t ∧ t.step = s.step + k * sign s.rot ∧ t.rot = s.rot ∧ t.run = s.run ∧
      (0 < k → t.latch = selected s.cfg s.cfg.mode (s.step + (k - 1) * sign s.rot))

/-! ### Motion State Machine -/

/-- 42_motion R140: a `TICK` while `Running` in a well-formed configuration applies the entry of the old index, stores the
new index, and stops when the new position is a milestone. The premise on the new index says that the register holds it
and its absolute value (R19); beyond it the model draws free values (notes/assumptions/6.md, 7.md). That the answer field
stays as it was is its choice (notes/assumptions/4.md). -/
def Obligations.TickAppliesStoresAndChecks : Prop :=
  ∀ (s : State) (n1 : Int) (p : Pattern), s.ctx = .timer → s.run = .running → configOk s.cfg = true →
    n1 = s.step + sign s.rot → p = tableEntry s.cfg s.cfg.mode (tableIndex s.step (tableLen s.cfg.mode)) →
    -(2 ^ (s.cfg.stepWidth - 1) : Int) < n1 → n1 < (2 ^ (s.cfg.stepWidth - 1) : Int) →
    encode .tick = 0x100 ∧
    ∃ t, exec .tick s = .next t ∧ t.latch = p ∧ t.step = n1 ∧
      t.run = (if classify s.cfg |n1| = .none then .running else .stopped) ∧
      t.trace = (if s.latch = p then s.trace else s.trace ++ s.plan p) ∧
      t.rot = s.rot ∧ t.cfg = s.cfg ∧ t.ret = s.ret ∧ t.calls = s.calls ∧ t.inbox = s.inbox

/-- 42_motion R144 (spec decision D22), 60_exceptions R185, R187: a stopping `TICK` discards a pending period, one that
goes on leaves it; every `TICK` returns to the foreground; and whatever the increment, `STEP` holds a value of its
register afterwards (notes/assumptions/6.md: the value is free when the exact one does not fit). The context as a field
is the model's reading (notes/assumptions/3.md). -/
def Obligations.TickReturnsFromTheInterrupt : Prop :=
  ∀ s : State, s.ctx = .timer → s.run = .running → configOk s.cfg = true →
    ∃ t, exec .tick s = .next t ∧ t.ctx = .foreground ∧
      t.tickPending = (if t.run = .stopped then false else s.tickPending) ∧ inRegister s.cfg.stepWidth t.step = true ∧
      t.latch = selected s.cfg s.cfg.mode s.step ∧ t.rot = s.rot

/-- 42_motion R143 (spec decision D22), 30_encoding R90: while `Stopped` a tick event is ignored. That `TICK`, which
R143 says has no step then, answers a next state is the model's reading, and that the context is the foreground
afterwards its choice (notes/assumptions/10.md). -/
def Obligations.TickWhileStoppedIsIgnored : Prop :=
  ∀ s : State, s.ctx = .timer → s.run = .stopped → exec .tick s = .next { s with ctx := .foreground }

/-- 42_motion R144, R145 (spec decisions D22, D31): `STOP` and `RESUME` write `RUN` and nothing else but the pending flag
that `STOP` discards, from either motion state. That `STOP` runs off a milestone, and `RESUME` whatever the position, is
the model's choice (notes/assumptions/28.md). -/
def Obligations.StopAndResumeWriteRun : Prop :=
  (∀ s : State, s.ctx = .inside .tick → exec .stop s = .next { s with run := .stopped, tickPending := false }) ∧
  (∀ s : State, s.ctx = .inside .act → exec .resume s = .next { s with run := .running })

/-- 42_motion R142: `STEP` changes by exactly `sign(ROT)` per `TICK` and by nothing else; one `TICK` makes at most one
`APPLY`. The premise says that the register holds the new index (notes/assumptions/6.md). -/
def Obligations.OnlyTickMovesStepByOne : Prop :=
  ∀ (i : Instr) (s t : State), exec i s = .next t →
    (i ≠ .tick → t.step = s.step) ∧
    (i = .tick → s.run = .stopped → t.step = s.step) ∧
    (i = .tick → s.run = .running → inRegister s.cfg.stepWidth (s.step + sign s.rot) = true →
      t.step = s.step + sign s.rot) ∧
    (i = .tick → t.trace.count .gap ≤ s.trace.count .gap + 1)

/-- 42_motion R141: from any running state of the invariant, ticking halts after finitely many ticks exactly at a
milestone; no tick before the last meets one, and no tick after it moves `STEP`. That a tick issued after the halt answers
a next state is the model's reading (notes/assumptions/10.md). -/
def Obligations.TickingHaltsExactlyAtAMilestone : Prop :=
  ∀ s : State, s.Inv → s.run = .running →
    ∃ (k : Nat) (t : State), 0 < k ∧ ticks k s = .next t ∧ t.run = .stopped ∧ t.step = s.step + k * sign s.rot ∧
      classify s.cfg |t.step| ≠ .none ∧
      (∀ j : Nat, 0 < j → j < k → classify s.cfg |s.step + j * sign s.rot| = .none ∧
        ∃ u, ticks j s = .next u ∧ u.run = .running ∧ u.step = s.step + j * sign s.rot) ∧
      (∀ j : Nat, ∃ u, ticks (k + j) s = .next u ∧ u.step = t.step ∧ u.run = .stopped)

/-- 42_motion R141, 95_test_vectors S7: from home, ticking in either direction halts exactly one unit away. -/
def Obligations.FirstHaltFromHomeIsOneUnitAway : Prop :=
  ∀ (s : State) (k : Nat), configOk s.cfg = true → s.step = 0 → s.run = .running → k ≤ s.cfg.unit →
    ∃ t, ticks k s = .next t ∧ t.step = k * sign s.rot ∧ t.rot = s.rot ∧
      (t.run = .stopped ↔ k = s.cfg.unit) ∧ (k = s.cfg.unit → t.milestone = .stopAndReport)

/-- 42_motion R148: there is no terminal state. In every state of the invariant, while `Running` the timer's `TICK` is
enabled, and while `Stopped` the foreground's `POLL` is enabled and ends `Running`. -/
def Obligations.EveryStateHasANextOperation : Prop :=
  ∀ s : State, s.Inv →
    (s.run = .running → ∃ t, exec .tick (s.issueAs .timer) = .next t ∧ t.step = s.step + sign s.rot) ∧
    (s.run = .stopped → ∃ t, exec .poll (s.issueAs .foreground) = .next t ∧ t.run = .running)

/-- 42_motion R151 (derived there), 95_test_vectors S8: from home going clockwise, with a poll after every stop, the block
reverses at `10*U` and is back at home, clockwise and running, after `40*U` ticks, for every well-formed
configuration. -/
def Obligations.FortyUnitsOfTurnsReturnHome : Prop :=
  ∀ s : State, configOk s.cfg = true → s.step = 0 → s.rot = .cw → s.run = .running →
    (∃ t, turns (10 * s.cfg.unit) s = .next t ∧ t.step = 10 * (s.cfg.unit : Int) ∧ t.rot = .ccw ∧ t.run = .running) ∧
    (∃ t, turns (30 * s.cfg.unit) s = .next t ∧ t.step = -(10 * (s.cfg.unit : Int)) ∧ t.rot = .cw ∧ t.run = .running) ∧
    (∃ t, turns (40 * s.cfg.unit) s = .next t ∧ t.step = 0 ∧ t.rot = .cw ∧ t.run = .running ∧
      t.latch = selected s.cfg s.cfg.mode (-1))

/-! ### Milestone Dispatcher -/

/-- 43_milestone R160, R162: `CLASSIFY` inside `TICK` or `POLL` answers the action of `abs(STEP)` and writes nothing. The
premise excludes the value whose `abs` the register cannot hold (notes/assumptions/7.md). The model's choices are the
field that holds the answer (notes/assumptions/4.md), that it runs inside `TICK` while `Stopped` and inside `POLL` while
`Running` (notes/assumptions/27.md), and that a sub-step runs on its issuer's tag alone (notes/assumptions/28.md). -/
def Obligations.ClassifyAnswersTheAction : Prop :=
  ∀ s : State, s.ctx = .inside .tick ∨ s.ctx = .inside .poll → s.step ≠ -(2 ^ (s.cfg.stepWidth - 1) : Int) →
    exec .classify s = .next { s with ret := .action (classify s.cfg |s.step|) }

/-- 43_milestone R163 (spec decision D19): `POLL` while `Running` changes nothing; while `Stopped` it runs the action of
the position (its effect R165 to R167, spec decisions D2, D20, D21), and `STEP` and the latch are never touched. That
the answer field stays as it was, though the `CLASSIFY` of a `POLL` answers, is the model's choice
(notes/assumptions/4.md). -/
def Obligations.PollActsOnlyWhileStopped : Prop :=
  ∀ s : State, s.ctx = .foreground →
    (s.run = .running → exec .poll s = .next s) ∧
    (s.run = .stopped → s.milestone = .none → exec .poll s = .next s) ∧
    (s.run = .stopped → s.milestone = .stopAndReport → exec .poll s =
      .next { s with run := .running,
                     calls := s.calls ++ [.report .stopAndReport s.rot s.magnitude, .dwell s.cfg.dwellMs] }) ∧
    (s.run = .stopped → s.milestone = .reverseAndReport → exec .poll s =
      .next { s with run := .running, rot := opposite s.rot,
                     calls := s.calls ++ [.report .reverseAndReport (opposite s.rot) s.magnitude,
                                          .dwell s.cfg.dwellMs] }) ∧
    (s.run = .stopped → s.milestone = .homeAndReport → exec .poll s =
      .next { s with run := .running,
                     calls := s.calls ++ [.report .homeAndReport s.rot 0, .dwell s.cfg.dwellMs] })

/-- 43_milestone R165: `ACT.STOP` inside `POLL` reports the rotation and the magnitude, dwells, and resumes; it writes
`RUN` and nothing else. It is the action one unit from home, and at home when home is not distinguished. The premise on
`STEP` excludes the value whose `abs` the register cannot hold (notes/assumptions/7.md). That it runs at any other
position too is the model's choice (notes/assumptions/28.md). -/
def Obligations.ActStopReportsDwellsAndResumes : Prop :=
  encode .actStop = 0xC01 ∧
  (∀ (c : Config) (a : Int), 1 ≤ c.unit →
    (classify c a = .stopAndReport ↔ a = c.unit ∨ (a = 0 ∧ c.homeVariant = false))) ∧
  ∀ s : State, s.ctx = .inside .poll → s.run = .stopped → s.step ≠ -(2 ^ (s.cfg.stepWidth - 1) : Int) →
    exec .actStop s =
      .next { s with run := .running,
                     calls := s.calls ++ [.report .stopAndReport s.rot |s.step|, .dwell s.cfg.dwellMs] }

/-- 43_milestone R166 (spec decision D20): `ACT.REV` toggles the rotation, reports the new one, dwells and resumes; `STEP`
is not changed. That it runs at a position where `CLASSIFY` does not select it is the model's choice
(notes/assumptions/28.md). -/
def Obligations.ActRevTogglesTheRotation : Prop :=
  ∀ s : State, s.ctx = .inside .poll → s.run = .stopped → s.step ≠ -(2 ^ (s.cfg.stepWidth - 1) : Int) →
    ∃ t, exec .actRev s = .next t ∧ t.rot ≠ s.rot ∧ sign t.rot = -sign s.rot ∧
      t = { s with rot := t.rot, run := .running,
                   calls := s.calls ++ [.report .reverseAndReport t.rot |s.step|, .dwell s.cfg.dwellMs] }

/-- 43_milestone R164, R167 (spec decisions D2, D21): `ACT.HOME` reports home and resumes without turning; `ACT.NONE` does
nothing. That `ACT.NONE` runs inside `POLL` while `Running` is the model's choice (notes/assumptions/27.md), and so is that
each runs at a position where `CLASSIFY` does not select it (notes/assumptions/28.md). -/
def Obligations.ActHomeResumesAndActNoneDoesNothing : Prop :=
  (∀ s : State, s.ctx = .inside .poll → s.run = .stopped → s.cfg.homeVariant = true →
    exec .actHome s =
      .next { s with run := .running,
                     calls := s.calls ++ [.report .homeAndReport s.rot 0, .dwell s.cfg.dwellMs] }) ∧
  (∀ s : State, s.ctx = .inside .poll → exec .actNone s = .next s)

/-- 60_exceptions R198, 43_milestone R164 (spec decision D21): in the one stuck state `POLL` does nothing, a tick is
ignored, and neither the timer nor the foreground ever starts the block again. -/
def Obligations.StuckStateStaysStuck : Prop :=
  ∀ (s t : State) (i : Instr), s.stuck = true → s.ctx = .timer ∨ s.ctx = .foreground → exec i s = .next t →
    t.stuck = true ∧ t.step = s.step ∧ t.rot = s.rot

/-! ### Whole-machine rules -/

/-- 30_encoding R84, R87, 44_operation_classes R174, 60_exceptions R187, R196 (spec decisions D14, D18, D33): an operation
that its agent does not issue is refused, whatever its operand; the foreground does not drive the coils while `Running`;
an `ADV.m` of another mode than the device's is refused. That `ADV.m` and its `APPLY` are refused while `Stopped`, the
`APPLY` of a `BRAKE` and a reporting action while `Running`, and `ACT.HOME` without the home variant, is the model's
reading of 20_memory R60, R187 and R167 (notes/assumptions/13.md). That a foreground `APPLY` of an illegal pattern while
`Running` is refused and does not fault is the model's choice of the order of checks (notes/assumptions/14.md). -/
def Obligations.OperationsOutOfPlaceAreRefused : Prop :=
  ∀ (s : State) (i : Instr),
    (s.ctx = .timer → i ≠ .tick → exec i s = .refused .reservedEncoding) ∧
    (s.ctx = .foreground → i ≠ .poll → i ≠ .rdstep → i ≠ .rdlatch → i ≠ .brake → (∀ p, i ≠ .apply p) →
      exec i s = .refused .reservedEncoding) ∧
    (s.ctx = .foreground → s.run = .running → i = .brake ∨ (∃ p, i = .apply p) →
      exec i s = .refused .foregroundDriveWhileRunning) ∧
    (s.ctx = .inside .brake → s.run = .running → (∃ p, i = .apply p) →
      exec i s = .refused .foregroundDriveWhileRunning) ∧
    (s.ctx = .inside .adv → s.run = .stopped → (∃ p, i = .apply p) → exec i s = .refused .reservedEncoding) ∧
    (s.ctx = .inside .tick → s.run = .stopped → (∃ m : DriveMode, i = Instr.ofMode m) →
      exec i s = .refused .reservedEncoding) ∧
    (∀ m : DriveMode, m ≠ s.cfg.mode → i = Instr.ofMode m → exec i s = .refused .reservedEncoding) ∧
    (s.run = .running → i = .actStop ∨ i = .actRev ∨ i = .actHome → exec i s = .refused .reservedEncoding) ∧
    (s.cfg.homeVariant = false → i = .actHome → exec i s = .refused .reservedEncoding) ∧
    (s.cfg.granularity = .bulk → (∃ b v, i = .pinw b v) → exec i s = .refused .reservedEncoding)

/-- 60_exceptions R187, 20_memory R60: what each context may write. The interrupt context never writes `ROT` and only
clears `RUN`; the running foreground writes none of `STEP`, `ROT`, `RUN`, `LATCH`; the stopped foreground never writes
`STEP`. `LATCH` is written only by a `TICK` or its sub-steps while `Running`, by the foreground or its `BRAKE` while
`Stopped`, and inside an `APPLY`. -/
def Obligations.EachContextWritesOnlyItsState : Prop :=
  ∀ (s t : State) (i : Instr), exec i s = .next t →
    (s.ctx = .timer → t.rot = s.rot ∧ (t.run = s.run ∨ t.run = .stopped)) ∧
    (s.ctx = .foreground → s.run = .running → t = { s with ret := t.ret }) ∧
    (s.ctx = .foreground → s.run = .stopped → t.step = s.step) ∧
    (t.latch ≠ s.latch →
      ((s.ctx = .timer ∨ s.ctx = .inside .tick ∨ s.ctx = .inside .adv) ∧ s.run = .running) ∨
      ((s.ctx = .foreground ∨ s.ctx = .inside .brake) ∧ s.run = .stopped) ∨ s.ctx = .inside .apply)

/-- 10_state R21, 20_memory R60 (b): `ROT` is written only by a reversal, only while `Stopped`, and only to the other
direction. -/
def Obligations.OnlyAReversalTurnsTheRotation : Prop :=
  ∀ (s t : State) (i : Instr), exec i s = .next t → t.rot ≠ s.rot →
    s.run = .stopped ∧ t.rot = opposite s.rot ∧ (i = .actRev ∨ (i = .poll ∧ s.milestone = .reverseAndReport))

/-- 10_state R25: `RUN` is cleared only by `STOP` and by the `TICK` that reaches a milestone, and set only by `RESUME` and
the actions that end in it. -/
def Obligations.OnlyStopAndResumeChangeRun : Prop :=
  ∀ (s t : State) (i : Instr), exec i s = .next t → t.run ≠ s.run →
    (t.run = .stopped ∧ (i = .stop ∨ (i = .tick ∧ t.milestone ≠ .none))) ∨
    (t.run = .running ∧ (i = .resume ∨ i = .actStop ∨ i = .actRev ∨ i = .actHome ∨ (i = .poll ∧ s.milestone ≠ .none)))

/-- 43_milestone R169, 70_reset R223: reports and dwells come only from the actions and the poll that runs one, never from
a `TICK`, and only while `Stopped`. -/
def Obligations.SlowWorkStaysOutOfTheInterrupt : Prop :=
  ∀ (s t : State) (i : Instr), exec i s = .next t → t.calls ≠ s.calls →
    s.run = .stopped ∧ s.ctx ≠ .timer ∧ (i = .poll ∨ i = .actStop ∨ i = .actRev ∨ i = .actHome)

/-- 60_exceptions R194: the write trace is an observation. No operation reads it, nor the calls already made, nor the last
answer (notes/assumptions/4.md, 17.md): with other ones, every operation does the same to the block. -/
def Obligations.ObservationsAreNeverRead : Prop :=
  ∀ (s t : State) (i : Instr) (trace : List WriteRec) (calls : List Call) (ret : Ret), exec i s = .next t →
    ∃ u, exec i { s with trace := trace, calls := calls, ret := ret } = .next u ∧
      u.step = t.step ∧ u.rot = t.rot ∧ u.run = t.run ∧ u.latch = t.latch ∧ u.tickPending = t.tickPending ∧
      u.cfg = t.cfg ∧ u.free = t.free

/-- 44_operation_classes R172, 42_motion R140: a `TICK` is its sub-steps: `ADV.m` of the built mode, the write of `STEP`,
`CLASSIFY`, and `STOP` at a milestone, each as its own operation says. Contexts and answers of the sub-steps are the
model's (notes/assumptions/3.md, 4.md). -/
def Obligations.TickIsItsSubSteps : Prop :=
  ∀ (s t : State), s.ctx = .timer → s.run = .running → exec .tick s = .next t →
    ∃ (s1 s2 : State) (n1 : Int) (a : Action),
      exec (Instr.ofMode s.cfg.mode) (s.issueAs (.inside .tick)) = .next s1 ∧
      s1.ret = .adv n1 (selected s.cfg s.cfg.mode s.step) ∧ n1 = s.step + sign s.rot ∧
      exec .classify ((s1.storeStep n1).issueAs (.inside .tick)) = .next s2 ∧ s2.ret = .action a ∧
      (a = .none → t = { s2 with ctx := .foreground, ret := s.ret }) ∧
      (a ≠ .none → ∃ s3, exec .stop (s2.issueAs (.inside .tick)) = .next s3 ∧
        t = { s3 with ctx := .foreground, ret := s.ret })

/-- 44_operation_classes R172, 40_coil_driver R100, R104: an `APPLY` is its sub-steps: `RDLATCH`, and, when the latch
differs, `OFFW ~p`, `DT`, `ONW p`, or in per-pin mode `PINW`s, `DT`, `PINW`s in the order of its plan. The field that holds
an answer and the count of drawn orders are the model's (notes/assumptions/4.md, 5.md). -/
def Obligations.ApplyIsItsSubSteps : Prop :=
  ∀ (s t : State) (p : Pattern), exec (.apply p) s = .next t →
    ∃ u, issueAll ((s.applyOps p).map (fun i => (.inside .apply, i))) s = .next u ∧
      t = { u with ctx := s.ctx, ret := s.ret, free := if s.latch = p then s.free else s.free + 2 }

/-- 44_operation_classes R172, 43_milestone R163: a `POLL` while `Stopped` is its sub-steps `CLASSIFY` and the `ACT.a`
it answers. That the `RDSTEP` of R163's comment is left out, as R172 leaves it out, is the model's choice
(notes/assumptions/26.md), and contexts and answers of the sub-steps are the model's (notes/assumptions/3.md, 4.md). -/
def Obligations.PollIsItsSubSteps : Prop :=
  ∀ (s t : State), s.ctx = .foreground → s.run = .stopped → exec .poll s = .next t →
    ∃ (s1 s2 : State) (a : Action),
      exec .classify (s.issueAs (.inside .poll)) = .next s1 ∧ s1.ret = .action a ∧
      exec (Instr.ofAction a) (s1.issueAs (.inside .poll)) = .next s2 ∧
      t = { s2 with ctx := .foreground, ret := s.ret }

/-- The invariant holds at reset (10_state R36, 42_motion R150). -/
def Obligations.InvariantHoldsAtReset : Prop := State.reset.Inv

/-- 10_state R36, R38, 42_motion R150 (derived there): every step from a state of the invariant, whatever the agents have
scheduled, leads to a state of the invariant: the latch is legal, `STEP` stays within `10*U` either side of home, the
rotation points inward when the block runs at a limit, and the block is stopped only at a milestone. -/
def Obligations.EveryStepKeepsTheInvariant : Prop :=
  ∀ s t : State, s.Inv → step s = .next t → t.Inv

/-- 60_exceptions R180, R195, 10_state R36: from a state of the invariant a step faults only on an illegal `APPLY` that
the foreground issues while stopped. That one issued while running is refused before its pattern is checked is the model's
choice (notes/assumptions/14.md). -/
def Obligations.OnlyAForegroundApplyCanFault : Prop :=
  ∀ (s : State) (r : Fault), s.Inv → step s = .fault r →
    ∃ (p : Pattern) (rest : List Event), s.inbox = .issue .foreground (encode (.apply p)) :: rest ∧
      legal p = false ∧ s.run = .stopped ∧ r = .shootThrough
end

