-- ==== Sys2Proof/Laws/Order.lean ====
section
/-! SUPPORT. The orders that the source leaves open (20_memory R55, 40_coil_driver R104): `permute k l` is always a
reordering of `l`, and every reordering of `l` is `permute k l` for some number `k`. -/

namespace Sys2Proof.Machine

theorem insertAt_perm {α : Type} (n : Nat) (x : α) (l : List α) : (insertAt n x l).Perm (x :: l) := by
  induction n generalizing l with
  | zero => exact .refl _
  | succ n ih =>
    cases l with
    | nil => exact .refl _
    | cons y ys => exact ((ih ys).cons y).trans (.swap x y ys)

/-- A reordering: nothing is dropped, added or repeated. -/
theorem permute_perm {α : Type} (k : Nat) (l : List α) : (permute k l).Perm l := by
  induction k, l using permute.induct with
  | case1 k => exact .refl _
  | case2 k x => exact .refl _
  | case3 k x y ys ih => exact (insertAt_perm _ _ _).trans (ih.cons x)

theorem insertAt_middle {α : Type} (x : α) (u v : List α) : insertAt u.length x (u ++ v) = u ++ x :: v := by
  induction u with
  | nil => rfl
  | cons y u ih => simp [insertAt, ih]

/-- Every order is admitted. -/
theorem permute_reaches {α : Type} (l m : List α) (h : m.Perm l) : ∃ k, permute k l = m := by
  induction l generalizing m with
  | nil => exact ⟨0, by simp [permute, h.eq_nil]⟩
  | cons x l ih =>
    obtain ⟨u, v, rfl⟩ := List.append_of_mem (h.mem_iff.mpr List.mem_cons_self)
    have huv : (u ++ v).Perm l := (List.perm_middle.symm.trans h).cons_inv
    obtain ⟨k, hk⟩ := ih _ huv
    cases l with
    | nil =>
      have := List.append_eq_nil_iff.mp huv.eq_nil
      exact ⟨0, by simp [permute, this.1, this.2]⟩
    | cons y ys =>
      have hlen : u.length < ys.length + 2 := by
        have := huv.length_eq
        simp at this
        omega
      refine ⟨u.length + (ys.length + 2) * k, ?_⟩
      have hmod : (u.length + (ys.length + 2) * k) % (ys.length + 2) = u.length := by
        rw [Nat.add_mul_mod_self_left, Nat.mod_eq_of_lt hlen]
      have hdiv : (u.length + (ys.length + 2) * k) / (ys.length + 2) = k := by
        rw [Nat.add_mul_div_left _ _ (by omega), Nat.div_eq_of_lt hlen, Nat.zero_add]
      simp only [permute, hmod, hdiv, hk, insertAt_middle]

end Sys2Proof.Machine
end

