-- ==== Sys2Proof/Laws/State.lean ====
section
/-! SUPPORT. For each plain update of the state, what each field is after it: the lemmas later proofs cite instead of
unfolding a record. -/

namespace Sys2Proof.Machine

variable (s : State)

@[simp] theorem State.stopTimer_cfg : (s.stopTimer).cfg = s.cfg := rfl
@[simp] theorem State.stopTimer_step : (s.stopTimer).step = s.step := rfl
@[simp] theorem State.stopTimer_rot : (s.stopTimer).rot = s.rot := rfl
@[simp] theorem State.stopTimer_run : (s.stopTimer).run = .stopped := rfl
@[simp] theorem State.stopTimer_latch : (s.stopTimer).latch = s.latch := rfl
@[simp] theorem State.stopTimer_tickPending : (s.stopTimer).tickPending = false := rfl
@[simp] theorem State.stopTimer_ctx : (s.stopTimer).ctx = s.ctx := rfl
@[simp] theorem State.stopTimer_ret : (s.stopTimer).ret = s.ret := rfl
@[simp] theorem State.stopTimer_trace : (s.stopTimer).trace = s.trace := rfl
@[simp] theorem State.stopTimer_calls : (s.stopTimer).calls = s.calls := rfl
@[simp] theorem State.stopTimer_inbox : (s.stopTimer).inbox = s.inbox := rfl
@[simp] theorem State.stopTimer_free : (s.stopTimer).free = s.free := rfl

@[simp] theorem State.startTimer_cfg : (s.startTimer).cfg = s.cfg := rfl
@[simp] theorem State.startTimer_step : (s.startTimer).step = s.step := rfl
@[simp] theorem State.startTimer_rot : (s.startTimer).rot = s.rot := rfl
@[simp] theorem State.startTimer_run : (s.startTimer).run = .running := rfl
@[simp] theorem State.startTimer_latch : (s.startTimer).latch = s.latch := rfl
@[simp] theorem State.startTimer_tickPending : (s.startTimer).tickPending = s.tickPending := rfl
@[simp] theorem State.startTimer_ctx : (s.startTimer).ctx = s.ctx := rfl
@[simp] theorem State.startTimer_ret : (s.startTimer).ret = s.ret := rfl
@[simp] theorem State.startTimer_trace : (s.startTimer).trace = s.trace := rfl
@[simp] theorem State.startTimer_calls : (s.startTimer).calls = s.calls := rfl
@[simp] theorem State.startTimer_inbox : (s.startTimer).inbox = s.inbox := rfl
@[simp] theorem State.startTimer_free : (s.startTimer).free = s.free := rfl

@[simp] theorem State.enterInterrupt_cfg : (s.enterInterrupt).cfg = s.cfg := rfl
@[simp] theorem State.enterInterrupt_step : (s.enterInterrupt).step = s.step := rfl
@[simp] theorem State.enterInterrupt_rot : (s.enterInterrupt).rot = s.rot := rfl
@[simp] theorem State.enterInterrupt_run : (s.enterInterrupt).run = s.run := rfl
@[simp] theorem State.enterInterrupt_latch : (s.enterInterrupt).latch = s.latch := rfl
@[simp] theorem State.enterInterrupt_tickPending : (s.enterInterrupt).tickPending = false := rfl
@[simp] theorem State.enterInterrupt_ctx : (s.enterInterrupt).ctx = .timer := rfl
@[simp] theorem State.enterInterrupt_ret : (s.enterInterrupt).ret = s.ret := rfl
@[simp] theorem State.enterInterrupt_trace : (s.enterInterrupt).trace = s.trace := rfl
@[simp] theorem State.enterInterrupt_calls : (s.enterInterrupt).calls = s.calls := rfl
@[simp] theorem State.enterInterrupt_inbox : (s.enterInterrupt).inbox = s.inbox := rfl
@[simp] theorem State.enterInterrupt_free : (s.enterInterrupt).free = s.free := rfl

@[simp] theorem State.leaveInterrupt_cfg : (s.leaveInterrupt).cfg = s.cfg := rfl
@[simp] theorem State.leaveInterrupt_step : (s.leaveInterrupt).step = s.step := rfl
@[simp] theorem State.leaveInterrupt_rot : (s.leaveInterrupt).rot = s.rot := rfl
@[simp] theorem State.leaveInterrupt_run : (s.leaveInterrupt).run = s.run := rfl
@[simp] theorem State.leaveInterrupt_latch : (s.leaveInterrupt).latch = s.latch := rfl
@[simp] theorem State.leaveInterrupt_tickPending : (s.leaveInterrupt).tickPending = s.tickPending := rfl
@[simp] theorem State.leaveInterrupt_ctx : (s.leaveInterrupt).ctx = .foreground := rfl
@[simp] theorem State.leaveInterrupt_ret : (s.leaveInterrupt).ret = s.ret := rfl
@[simp] theorem State.leaveInterrupt_trace : (s.leaveInterrupt).trace = s.trace := rfl
@[simp] theorem State.leaveInterrupt_calls : (s.leaveInterrupt).calls = s.calls := rfl
@[simp] theorem State.leaveInterrupt_inbox : (s.leaveInterrupt).inbox = s.inbox := rfl
@[simp] theorem State.leaveInterrupt_free : (s.leaveInterrupt).free = s.free := rfl

@[simp] theorem State.perform_cfg (r : WriteRec) : (s.perform r).cfg = s.cfg := rfl
@[simp] theorem State.perform_step (r : WriteRec) : (s.perform r).step = s.step := rfl
@[simp] theorem State.perform_rot (r : WriteRec) : (s.perform r).rot = s.rot := rfl
@[simp] theorem State.perform_run (r : WriteRec) : (s.perform r).run = s.run := rfl
@[simp] theorem State.perform_latch (r : WriteRec) : (s.perform r).latch = writeLatch s.latch r := rfl
@[simp] theorem State.perform_tickPending (r : WriteRec) : (s.perform r).tickPending = s.tickPending := rfl
@[simp] theorem State.perform_ctx (r : WriteRec) : (s.perform r).ctx = s.ctx := rfl
@[simp] theorem State.perform_ret (r : WriteRec) : (s.perform r).ret = s.ret := rfl
@[simp] theorem State.perform_trace (r : WriteRec) : (s.perform r).trace = s.trace ++ [r] := rfl
@[simp] theorem State.perform_calls (r : WriteRec) : (s.perform r).calls = s.calls := rfl
@[simp] theorem State.perform_inbox (r : WriteRec) : (s.perform r).inbox = s.inbox := rfl
@[simp] theorem State.perform_free (r : WriteRec) : (s.perform r).free = s.free := rfl

@[simp] theorem State.answer_cfg (r : Ret) : (s.answer r).cfg = s.cfg := rfl
@[simp] theorem State.answer_step (r : Ret) : (s.answer r).step = s.step := rfl
@[simp] theorem State.answer_rot (r : Ret) : (s.answer r).rot = s.rot := rfl
@[simp] theorem State.answer_run (r : Ret) : (s.answer r).run = s.run := rfl
@[simp] theorem State.answer_latch (r : Ret) : (s.answer r).latch = s.latch := rfl
@[simp] theorem State.answer_tickPending (r : Ret) : (s.answer r).tickPending = s.tickPending := rfl
@[simp] theorem State.answer_ctx (r : Ret) : (s.answer r).ctx = s.ctx := rfl
@[simp] theorem State.answer_ret (r : Ret) : (s.answer r).ret = r := rfl
@[simp] theorem State.answer_trace (r : Ret) : (s.answer r).trace = s.trace := rfl
@[simp] theorem State.answer_calls (r : Ret) : (s.answer r).calls = s.calls := rfl
@[simp] theorem State.answer_inbox (r : Ret) : (s.answer r).inbox = s.inbox := rfl
@[simp] theorem State.answer_free (r : Ret) : (s.answer r).free = s.free := rfl

@[simp] theorem State.report_cfg (k : Action) (m : Int) : (s.report k m).cfg = s.cfg := rfl
@[simp] theorem State.report_step (k : Action) (m : Int) : (s.report k m).step = s.step := rfl
@[simp] theorem State.report_rot (k : Action) (m : Int) : (s.report k m).rot = s.rot := rfl
@[simp] theorem State.report_run (k : Action) (m : Int) : (s.report k m).run = s.run := rfl
@[simp] theorem State.report_latch (k : Action) (m : Int) : (s.report k m).latch = s.latch := rfl
@[simp] theorem State.report_tickPending (k : Action) (m : Int) : (s.report k m).tickPending = s.tickPending := rfl
@[simp] theorem State.report_ctx (k : Action) (m : Int) : (s.report k m).ctx = s.ctx := rfl
@[simp] theorem State.report_ret (k : Action) (m : Int) : (s.report k m).ret = s.ret := rfl
@[simp] theorem State.report_trace (k : Action) (m : Int) : (s.report k m).trace = s.trace := rfl
@[simp] theorem State.report_calls (k : Action) (m : Int) : (s.report k m).calls = s.calls ++ [.report k s.rot m] := rfl
@[simp] theorem State.report_inbox (k : Action) (m : Int) : (s.report k m).inbox = s.inbox := rfl
@[simp] theorem State.report_free (k : Action) (m : Int) : (s.report k m).free = s.free := rfl

@[simp] theorem State.dwell_cfg : (s.dwell).cfg = s.cfg := rfl
@[simp] theorem State.dwell_step : (s.dwell).step = s.step := rfl
@[simp] theorem State.dwell_rot : (s.dwell).rot = s.rot := rfl
@[simp] theorem State.dwell_run : (s.dwell).run = s.run := rfl
@[simp] theorem State.dwell_latch : (s.dwell).latch = s.latch := rfl
@[simp] theorem State.dwell_tickPending : (s.dwell).tickPending = s.tickPending := rfl
@[simp] theorem State.dwell_ctx : (s.dwell).ctx = s.ctx := rfl
@[simp] theorem State.dwell_ret : (s.dwell).ret = s.ret := rfl
@[simp] theorem State.dwell_trace : (s.dwell).trace = s.trace := rfl
@[simp] theorem State.dwell_calls : (s.dwell).calls = s.calls ++ [.dwell s.cfg.dwellMs] := rfl
@[simp] theorem State.dwell_inbox : (s.dwell).inbox = s.inbox := rfl
@[simp] theorem State.dwell_free : (s.dwell).free = s.free := rfl

@[simp] theorem State.flip_cfg : (s.flip).cfg = s.cfg := rfl
@[simp] theorem State.flip_step : (s.flip).step = s.step := rfl
@[simp] theorem State.flip_rot : (s.flip).rot = opposite s.rot := rfl
@[simp] theorem State.flip_run : (s.flip).run = s.run := rfl
@[simp] theorem State.flip_latch : (s.flip).latch = s.latch := rfl
@[simp] theorem State.flip_tickPending : (s.flip).tickPending = s.tickPending := rfl
@[simp] theorem State.flip_ctx : (s.flip).ctx = s.ctx := rfl
@[simp] theorem State.flip_ret : (s.flip).ret = s.ret := rfl
@[simp] theorem State.flip_trace : (s.flip).trace = s.trace := rfl
@[simp] theorem State.flip_calls : (s.flip).calls = s.calls := rfl
@[simp] theorem State.flip_inbox : (s.flip).inbox = s.inbox := rfl
@[simp] theorem State.flip_free : (s.flip).free = s.free := rfl

@[simp] theorem State.place_cfg (c : Ctx) (w : CmdWord) : (s.place c w).cfg = s.cfg := rfl
@[simp] theorem State.place_step (c : Ctx) (w : CmdWord) : (s.place c w).step = s.step := rfl
@[simp] theorem State.place_rot (c : Ctx) (w : CmdWord) : (s.place c w).rot = s.rot := rfl
@[simp] theorem State.place_run (c : Ctx) (w : CmdWord) : (s.place c w).run = s.run := rfl
@[simp] theorem State.place_latch (c : Ctx) (w : CmdWord) : (s.place c w).latch = s.latch := rfl
@[simp] theorem State.place_tickPending (c : Ctx) (w : CmdWord) : (s.place c w).tickPending = s.tickPending := rfl
@[simp] theorem State.place_ctx (c : Ctx) (w : CmdWord) : (s.place c w).ctx = s.ctx := rfl
@[simp] theorem State.place_ret (c : Ctx) (w : CmdWord) : (s.place c w).ret = s.ret := rfl
@[simp] theorem State.place_trace (c : Ctx) (w : CmdWord) : (s.place c w).trace = s.trace := rfl
@[simp] theorem State.place_calls (c : Ctx) (w : CmdWord) : (s.place c w).calls = s.calls := rfl
@[simp] theorem State.place_inbox (c : Ctx) (w : CmdWord) : (s.place c w).inbox = .issue c w :: s.inbox := rfl
@[simp] theorem State.place_free (c : Ctx) (w : CmdWord) : (s.place c w).free = s.free := rfl

theorem State.powerCycle_eq : s.powerCycle = { State.powerOn s.cfg with inbox := s.inbox, free := s.free } := rfl

/-- Everything but `ctx` and, for the timer, the pending flag is as it was: an operation starts in the state it is
issued in (60_exceptions R184). -/
theorem State.issueAs_eq (c : Ctx) :
    s.issueAs c = { s with ctx := c, tickPending := if c = .timer then false else s.tickPending } := by
  cases c <;> rfl

@[simp] theorem State.issueAs_cfg (c : Ctx) : (s.issueAs c).cfg = s.cfg := by rw [s.issueAs_eq]
@[simp] theorem State.issueAs_step (c : Ctx) : (s.issueAs c).step = s.step := by rw [s.issueAs_eq]
@[simp] theorem State.issueAs_rot (c : Ctx) : (s.issueAs c).rot = s.rot := by rw [s.issueAs_eq]
@[simp] theorem State.issueAs_run (c : Ctx) : (s.issueAs c).run = s.run := by rw [s.issueAs_eq]
@[simp] theorem State.issueAs_latch (c : Ctx) : (s.issueAs c).latch = s.latch := by rw [s.issueAs_eq]
@[simp] theorem State.issueAs_tickPending (c : Ctx) : (s.issueAs c).tickPending = if c = .timer then false else s.tickPending := by rw [s.issueAs_eq]
@[simp] theorem State.issueAs_ctx (c : Ctx) : (s.issueAs c).ctx = c := by rw [s.issueAs_eq]
@[simp] theorem State.issueAs_ret (c : Ctx) : (s.issueAs c).ret = s.ret := by rw [s.issueAs_eq]
@[simp] theorem State.issueAs_trace (c : Ctx) : (s.issueAs c).trace = s.trace := by rw [s.issueAs_eq]
@[simp] theorem State.issueAs_calls (c : Ctx) : (s.issueAs c).calls = s.calls := by rw [s.issueAs_eq]
@[simp] theorem State.issueAs_inbox (c : Ctx) : (s.issueAs c).inbox = s.inbox := by rw [s.issueAs_eq]
@[simp] theorem State.issueAs_free (c : Ctx) : (s.issueAs c).free = s.free := by rw [s.issueAs_eq]

end Sys2Proof.Machine
end

