-- ==== Sys2Proof/Laws/Drive.lean ====
section
/-! SUPPORT. What the Coil Driver's writes do: the latch after any list of writes, the shared `APPLY` in every write
granularity and order, and what it leaves unchanged. -/

namespace Sys2Proof.Machine

@[simp] theorem writesLatch_nil (l : Pattern) : writesLatch l [] = l := rfl

@[simp] theorem writesLatch_cons (l : Pattern) (r : WriteRec) (rs : List WriteRec) :
    writesLatch l (r :: rs) = writesLatch (writeLatch l r) rs := rfl

theorem writesLatch_append (l : Pattern) (rs qs : List WriteRec) :
    writesLatch l (rs ++ qs) = writesLatch (writesLatch l rs) qs := by
  simp [writesLatch, List.foldl_append]

@[simp] theorem writeLatch_pin_false (l : Pattern) (b : Nat) : writeLatch l (.pin b false) = l &&& ~~~(bitMask b) := rfl

@[simp] theorem writeLatch_pin_true (l : Pattern) (b : Nat) : writeLatch l (.pin b true) = l ||| bitMask b := rfl

/-- Writes that only clear: a bit stays on when it was on and no mask names it. -/
theorem getLsbD_clears {α : Type} (f : α → WriteRec) (mask : α → Pattern)
    (hf : ∀ (l : Pattern) x, writeLatch l (f x) = l &&& ~~~(mask x)) (xs : List α) (l : Pattern) (i : Nat) (hi : i < 8) :
    (writesLatch l (xs.map f)).getLsbD i = (l.getLsbD i && xs.all (fun x => !(mask x).getLsbD i)) := by
  induction xs generalizing l with
  | nil => simp
  | cons x xs ih =>
    simp only [List.map_cons, writesLatch_cons, ih, hf, BitVec.getLsbD_and, BitVec.getLsbD_not, hi, decide_true,
      Bool.true_and, List.all_cons, Bool.and_assoc]

/-- Writes that only set: a bit is on when it was on or some mask names it. -/
theorem getLsbD_sets {α : Type} (f : α → WriteRec) (mask : α → Pattern)
    (hf : ∀ (l : Pattern) x, writeLatch l (f x) = l ||| mask x) (xs : List α) (l : Pattern) (i : Nat) :
    (writesLatch l (xs.map f)).getLsbD i = (l.getLsbD i || xs.any (fun x => (mask x).getLsbD i)) := by
  induction xs generalizing l with
  | nil => simp
  | cons x xs ih => simp [ih, hf, Bool.or_assoc]

theorem mem_distinct (x : Nat) (l : List Nat) : x ∈ distinct l ↔ x ∈ l := by
  induction l with
  | nil => simp [distinct]
  | cons y l ih =>
    by_cases h : y ∈ l
    · simp only [distinct, h, if_true, ih, List.mem_cons]
      exact ⟨.inr, fun hx => hx.elim (fun e => e ▸ h) id⟩
    · simp [distinct, h, ih]

/-- Every switch bit is on some port (20_memory R54). -/
theorem portGroups_cover (m : PortMap) (i : Nat) (hi : i < 8) : ∃ g ∈ portGroups m, g.getLsbD i = true := by
  have cover : ∀ q ∈ portList m, (portMaskFrom q 0 (portList m)).getLsbD i = true →
      ∃ g ∈ portGroups m, g.getLsbD i = true := fun q hq h =>
    ⟨_, List.mem_map.mpr ⟨q, (mem_distinct q _).mpr hq, rfl⟩, h⟩
  obtain ⟨ha, hb, hc, hd, la, lb, lc, ld⟩ := m
  interval_cases i
  · exact cover ld (by simp [portList]) (by simp [portList, portMaskFrom, bitMask])
  · exact cover lc (by simp [portList]) (by simp [portList, portMaskFrom, bitMask])
  · exact cover lb (by simp [portList]) (by simp [portList, portMaskFrom, bitMask])
  · exact cover la (by simp [portList]) (by simp [portList, portMaskFrom, bitMask])
  · exact cover hd (by simp [portList]) (by simp [portList, portMaskFrom, bitMask])
  · exact cover hc (by simp [portList]) (by simp [portList, portMaskFrom, bitMask])
  · exact cover hb (by simp [portList]) (by simp [portList, portMaskFrom, bitMask])
  · exact cover ha (by simp [portList]) (by simp [portList, portMaskFrom, bitMask])

theorem mem_bitsAt (p : Pattern) (v : Bool) (b : Nat) : b ∈ bitsAt p v ↔ b < 8 ∧ p.getLsbD b = v := by
  have : b ∈ [0, 1, 2, 3, 4, 5, 6, 7] ↔ b < 8 := by
    simp only [List.mem_cons, List.not_mem_nil, or_false]
    omega
  simp only [bitsAt, List.mem_filter, this, beq_iff_eq]

theorem getLsbD_bitMask (b i : Nat) (hi : i < 8) : (bitMask b).getLsbD i = decide (i = b) := by
  simp only [bitMask, BitVec.getLsbD_shiftLeft, BitVec.getLsbD_one, hi]
  by_cases h : i < b
  · simp [h, Nat.ne_of_lt h]
  · simp only [h, decide_false, Bool.not_false, decide_true, Bool.and_true, Bool.true_and]
    exact decide_eq_decide.mpr (by omega)

theorem all_permute {α : Type} (k : Nat) (l : List α) (f : α → Bool) : (permute k l).all f = l.all f :=
  (permute_perm k l).all_eq

theorem any_permute {α : Type} (k : Nat) (l : List α) (f : α → Bool) : (permute k l).any f = l.any f :=
  (permute_perm k l).any_eq

/-- A reset-bits write clears exactly the mask, on any ports and in any order (R54, R101). -/
theorem writesLatch_portWrites_off (c : Config) (k : Nat) (mask l : Pattern) :
    writesLatch l (portWrites c k .off mask) = l &&& ~~~mask := by
  apply BitVec.eq_of_getLsbD_eq
  intro i hi
  rw [portWrites, getLsbD_clears (fun g => .off (mask &&& g)) (fun g => mask &&& g) (fun _ _ => rfl) _ _ _ hi,
    all_permute, BitVec.getLsbD_and]
  obtain ⟨g, hg, hgi⟩ := portGroups_cover c.portOf i hi
  congr 1
  simp only [BitVec.getLsbD_and, BitVec.getLsbD_not, hi, decide_true, Bool.true_and]
  cases hm : mask.getLsbD i
  · simp
  · exact List.all_eq_false.mpr ⟨g, hg, by simp [hgi]⟩

/-- A set-bits write sets exactly the mask, on any ports and in any order (R54, R103). -/
theorem writesLatch_portWrites_on (c : Config) (k : Nat) (mask l : Pattern) :
    writesLatch l (portWrites c k .on mask) = l ||| mask := by
  apply BitVec.eq_of_getLsbD_eq
  intro i hi
  rw [portWrites, getLsbD_sets (fun g => .on (mask &&& g)) (fun g => mask &&& g) (fun _ _ => rfl), any_permute,
    BitVec.getLsbD_or]
  obtain ⟨g, hg, hgi⟩ := portGroups_cover c.portOf i hi
  congr 1
  simp only [BitVec.getLsbD_and]
  cases hm : mask.getLsbD i
  · simp
  · exact List.any_eq_true.mpr ⟨g, hg, by rw [hgi]; rfl⟩

/-- The writes of one mask are those of its ports, each once (R54). -/
theorem portWrites_perm (c : Config) (k : Nat) (write : Pattern → WriteRec) (mask : Pattern) :
    (portWrites c k write mask).Perm ((portGroups c.portOf).map (fun g => write (mask &&& g))) :=
  (permute_perm k _).map _

/-- After the off-writes, in every granularity and order, the latch is `old & p` (R101, R104). -/
theorem writesLatch_offWrites (c : Config) (k : Nat) (p l : Pattern) :
    writesLatch l (offWrites c k p) = l &&& p := by
  unfold offWrites
  cases c.granularity with
  | bulk => rw [writesLatch_portWrites_off, BitVec.not_not]
  | perPin =>
    apply BitVec.eq_of_getLsbD_eq
    intro i hi
    rw [getLsbD_clears (fun b => .pin b false) bitMask (fun _ _ => rfl) _ _ _ hi, all_permute, BitVec.getLsbD_and]
    congr 1
    simp only [getLsbD_bitMask _ _ hi]
    cases hp : p.getLsbD i
    · rw [List.all_eq_false]
      exact ⟨i, (mem_bitsAt _ _ _).mpr ⟨hi, hp⟩, by simp only [decide_true]; decide⟩
    · rw [List.all_eq_true]
      intro b hb
      have hne : i ≠ b := fun e => by
        rw [e, ((mem_bitsAt _ _ _).mp hb).2] at hp
        exact Bool.false_ne_true hp
      simp only [hne, decide_false, Bool.not_false]

/-- The on-writes, in every granularity and order, add exactly the bits of `p` (R103, R104). -/
theorem writesLatch_onWrites (c : Config) (k : Nat) (p l : Pattern) :
    writesLatch l (onWrites c k p) = l ||| p := by
  unfold onWrites
  cases c.granularity with
  | bulk => exact writesLatch_portWrites_on c k p l
  | perPin =>
    apply BitVec.eq_of_getLsbD_eq
    intro i hi
    rw [getLsbD_sets (fun b => .pin b true) bitMask (fun _ _ => rfl), any_permute, BitVec.getLsbD_or]
    congr 1
    simp only [getLsbD_bitMask _ _ hi]
    cases hp : p.getLsbD i
    · rw [List.any_eq_false]
      intro b hb
      have hne : i ≠ b := fun e => by
        rw [e, ((mem_bitsAt _ _ _).mp hb).2] at hp
        exact Bool.false_ne_true hp.symm
      simp only [hne, decide_false]; decide
    · exact List.any_eq_true.mpr ⟨i, (mem_bitsAt _ _ _).mpr ⟨hi, hp⟩, decide_eq_true rfl⟩

theorem and_or_self (l p : Pattern) : (l &&& p) ||| p = p := by
  apply BitVec.eq_of_getLsbD_eq
  intro i _
  cases hp : p.getLsbD i <;> simp [hp]

/-- Whatever the latch held, the plan of `APPLY p` ends with `p` (R100). -/
theorem writesLatch_switchPlan (c : Config) (kOff kOn : Nat) (p l : Pattern) :
    writesLatch l (switchPlan c kOff kOn p) = p := by
  rw [switchPlan, writesLatch_append, writesLatch_cons, writesLatch_offWrites, writesLatch_onWrites]
  exact and_or_self l p

/-- What a list of writes does to the state: the latch, the trace, and nothing else. -/
theorem State.performAll_eq (s : State) (rs : List WriteRec) :
    s.performAll rs = { s with latch := writesLatch s.latch rs, trace := s.trace ++ rs } := by
  induction rs generalizing s with
  | nil => simp [performAll]
  | cons r rs ih =>
    have : s.performAll (r :: rs) = (s.perform r).performAll rs := rfl
    rw [this, ih]
    simp [perform]

/-- Everything `LatchClear(mask)` does (R54, R101). -/
theorem State.writePorts_off (s : State) (mask : Pattern) :
    s.writePorts .off mask = { s with latch := s.latch &&& ~~~mask,
                                      trace := s.trace ++ portWrites s.cfg (Config.freeOrder s.free) .off mask,
                                      free := s.free + 1 } := by
  simp [writePorts, performAll_eq, writesLatch_portWrites_off]

/-- Everything `LatchSet(mask)` does (R54, R103). -/
theorem State.writePorts_on (s : State) (mask : Pattern) :
    s.writePorts .on mask = { s with latch := s.latch ||| mask,
                                     trace := s.trace ++ portWrites s.cfg (Config.freeOrder s.free) .on mask,
                                     free := s.free + 1 } := by
  simp [writePorts, performAll_eq, writesLatch_portWrites_on]

theorem State.drive_same (s : State) (p : Pattern) (h : s.latch = p) : s.drive p = s := by simp [drive, h]

/-- Everything the shared `APPLY` of a differing pattern does. -/
theorem State.drive_differs (s : State) (p : Pattern) (h : s.latch ≠ p) :
    s.drive p = { s with latch := p, trace := s.trace ++ s.plan p, free := s.free + 2 } := by
  have : writesLatch s.latch (s.plan p) = p := writesLatch_switchPlan _ _ _ _ _
  simp [drive, h, performAll_eq, this]

@[simp] theorem State.drive_latch (s : State) (p : Pattern) : (s.drive p).latch = p := by
  by_cases h : s.latch = p
  · rw [s.drive_same p h, h]
  · rw [s.drive_differs p h]

theorem State.drive_trace (s : State) (p : Pattern) :
    (s.drive p).trace = if s.latch = p then s.trace else s.trace ++ s.plan p := by
  by_cases h : s.latch = p
  · rw [s.drive_same p h, if_pos h]
  · rw [s.drive_differs p h, if_neg h]

theorem State.drive_free (s : State) (p : Pattern) :
    (s.drive p).free = if s.latch = p then s.free else s.free + 2 := by
  by_cases h : s.latch = p
  · rw [s.drive_same p h, if_pos h]
  · rw [s.drive_differs p h, if_neg h]

section
variable (s : State) (p : Pattern)

@[simp] theorem State.drive_cfg : (s.drive p).cfg = s.cfg := by unfold drive; split <;> simp [performAll_eq]
@[simp] theorem State.drive_step : (s.drive p).step = s.step := by unfold drive; split <;> simp [performAll_eq]
@[simp] theorem State.drive_rot : (s.drive p).rot = s.rot := by unfold drive; split <;> simp [performAll_eq]
@[simp] theorem State.drive_run : (s.drive p).run = s.run := by unfold drive; split <;> simp [performAll_eq]
@[simp] theorem State.drive_tickPending : (s.drive p).tickPending = s.tickPending := by
  unfold drive; split <;> simp [performAll_eq]
@[simp] theorem State.drive_ctx : (s.drive p).ctx = s.ctx := by unfold drive; split <;> simp [performAll_eq]
@[simp] theorem State.drive_ret : (s.drive p).ret = s.ret := by unfold drive; split <;> simp [performAll_eq]
@[simp] theorem State.drive_calls : (s.drive p).calls = s.calls := by unfold drive; split <;> simp [performAll_eq]
@[simp] theorem State.drive_inbox : (s.drive p).inbox = s.inbox := by unfold drive; split <;> simp [performAll_eq]
end

/-- On one port a mask is written at once (R54). -/
theorem portWrites_onePort (c : Config) (k : Nat) (write : Pattern → WriteRec) (mask : Pattern)
    (hp : portGroups c.portOf = [0xFF#8]) : portWrites c k write mask = [write mask] := by
  have h : mask &&& 0xFF#8 = mask := BitVec.and_allOnes
  simp [portWrites, hp, permute, h]

/-- The plan on one port in bulk mode (R100, R110). -/
theorem switchPlan_bulk (c : Config) (kOff kOn : Nat) (p : Pattern) (hg : c.granularity = .bulk)
    (hp : portGroups c.portOf = [0xFF#8]) : switchPlan c kOff kOn p = [.off (~~~p), .gap, .on p] := by
  simp [switchPlan, offWrites, onWrites, hg, portWrites_onePort, hp]

end Sys2Proof.Machine
end

