-- ==== Sys2Proof/Laws/Ops.lean ====
section
/-! SUPPORT. What each shared operation of Machine/Ops.lean can do, said once: the gates, `APPLY`, `ADV.m`, the store of
`STEP`, the stop check, the actions, and the classification they rest on. -/

namespace Sys2Proof.Machine

@[simp] theorem andThen_next (s : State) (k : State → Out) : andThen (.next s) k = k s := rfl
@[simp] theorem andThen_fault (r : Fault) (k : State → Out) : andThen (.fault r) k = .fault r := rfl
@[simp] theorem andThen_refused (r : Refusal) (k : State → Out) : andThen (.refused r) k = .refused r := rfl

theorem andThen_eq_next (o : Out) (k : State → Out) (t : State) :
    andThen o k = .next t ↔ ∃ s, o = .next s ∧ k s = .next t := by
  cases o <;> simp

theorem State.issuedBy_mem {s : State} {cs : List Ctx} (h : s.ctx ∈ cs) (o : Out) : s.issuedBy cs o = o := if_pos h

theorem State.issuedBy_not_mem {s : State} {cs : List Ctx} (h : s.ctx ∉ cs) (o : Out) :
    s.issuedBy cs o = .refused .reservedEncoding := if_neg h

/-- An operation goes on only where its issuer may issue it. -/
theorem State.issuedBy_eq_next (s : State) (cs : List Ctx) (o : Out) (t : State) :
    s.issuedBy cs o = .next t ↔ s.ctx ∈ cs ∧ o = .next t := by
  unfold issuedBy
  split <;> simp [*]

/-- An `APPLY` goes on only where its context may drive the coils. -/
theorem State.driveAllowed_eq_next (s : State) (o : Out) (t : State) :
    s.driveAllowed o = .next t ↔ o = .next t ∧ (s.run = .running → s.ctx ≠ .foreground ∧ s.ctx ≠ .inside .brake) ∧
      (s.run = .stopped → s.ctx ≠ .inside .adv) := by
  unfold driveAllowed
  cases s.run
  · by_cases h : s.ctx = .inside .adv <;> simp [h]
  · by_cases h : s.ctx = .foreground ∨ s.ctx = .inside .brake
    · rcases h with h | h <;> simp [h]
    · simp [not_or.mp h]

/-- From the foreground, the drive check is the one of R196. -/
theorem State.driveAllowed_foreground {s : State} (h : s.ctx = .foreground) (o : Out) :
    s.driveAllowed o = if s.run = .running then .refused .foregroundDriveWhileRunning else o := by
  unfold driveAllowed
  cases s.run <;> simp [h]

/-- `ADV.m` as an operation of its own goes on as `ADV.m` inside a running `TICK` of the built mode, and only there. -/
theorem State.advanceAs_eq_next (s : State) (m : DriveMode) (t : State) :
    s.advanceAs m = .next t ↔ s.ctx = .inside .tick ∧ s.run = .running ∧ s.cfg.mode = m ∧ s.advance m = .next t := by
  rw [advanceAs, issuedBy_eq_next]
  split <;> simp_all

theorem State.applyPattern_legal (s : State) {p : Pattern} (h : legal p = true) : s.applyPattern p = .next (s.drive p) :=
  if_pos h

theorem State.applyPattern_illegal (s : State) {p : Pattern} (h : legal p = false) :
    s.applyPattern p = .fault .shootThrough := by simp [applyPattern, h]

theorem State.applyPattern_eq_next (s : State) (p : Pattern) (t : State) :
    s.applyPattern p = .next t ↔ legal p = true ∧ s.drive p = t := by
  unfold applyPattern
  split <;> simp [*]

/-- `ADV.m` of a legal entry: the latch is driven, and the next index and the pattern are returned (R121). -/
theorem State.advance_legal (s : State) (m : DriveMode) (h : legal (selected s.cfg m s.step) = true) :
    s.advance m = .next ((s.drive (selected s.cfg m s.step)).answer
      (.adv (s.step + sign s.rot) (selected s.cfg m s.step))) := by
  simp [advance, s.applyPattern_legal h]

/-- On one port there is one group, of all eight switches (R54). -/
theorem portGroups_onePort {m : PortMap} (h : onOnePort m = true) : portGroups m = [0xFF#8] := by
  obtain ⟨ha, hb, hc, hd, la, lb, lc, ld⟩ := m
  simp only [onOnePort, portList, List.all_cons, List.all_nil, Bool.and_true, Bool.and_eq_true, beq_iff_eq] at h
  obtain ⟨-, rfl, rfl, rfl, rfl, rfl, rfl, rfl⟩ := h
  simp [portGroups, portList, distinct, portMaskFrom, bitMask]

/-- The interrupt is not taken where the next operation is a sub-step of a `TICK` (R185). -/
theorem State.not_interruptDue_of_tickGoesOn {s : State} (h : tickGoesOn s.inbox = true) : s.interruptDue = false := by
  simp [interruptDue, h]

theorem inRegister_iff (w : Nat) (n : Int) :
    inRegister w n = true ↔ -(2 ^ (w - 1) : Int) ≤ n ∧ n < (2 ^ (w - 1) : Int) := by simp [inRegister]

theorem State.storeStep_inRegister (s : State) {n : Int} (h : inRegister s.cfg.stepWidth n = true) :
    s.storeStep n = { s with step := n } := if_pos h

section
variable (s : State) (n : Int)

@[simp] theorem State.storeStep_cfg : (s.storeStep n).cfg = s.cfg := by unfold storeStep; split <;> rfl
@[simp] theorem State.storeStep_rot : (s.storeStep n).rot = s.rot := by unfold storeStep; split <;> rfl
@[simp] theorem State.storeStep_run : (s.storeStep n).run = s.run := by unfold storeStep; split <;> rfl
@[simp] theorem State.storeStep_latch : (s.storeStep n).latch = s.latch := by unfold storeStep; split <;> rfl
@[simp] theorem State.storeStep_tickPending : (s.storeStep n).tickPending = s.tickPending := by
  unfold storeStep; split <;> rfl
@[simp] theorem State.storeStep_ctx : (s.storeStep n).ctx = s.ctx := by unfold storeStep; split <;> rfl
@[simp] theorem State.storeStep_ret : (s.storeStep n).ret = s.ret := by unfold storeStep; split <;> rfl
@[simp] theorem State.storeStep_trace : (s.storeStep n).trace = s.trace := by unfold storeStep; split <;> rfl
@[simp] theorem State.storeStep_calls : (s.storeStep n).calls = s.calls := by unfold storeStep; split <;> rfl
@[simp] theorem State.storeStep_inbox : (s.storeStep n).inbox = s.inbox := by unfold storeStep; split <;> rfl
end

/-- The stop check changes `RUN` and the pending flag, at a milestone only (R140). -/
theorem State.stopCheck_eq (s : State) :
    s.stopCheck = { s with
      run := if s.milestone = .none then s.run else .stopped
      tickPending := if s.milestone = .none then s.tickPending else false } := by
  unfold stopCheck
  split <;> simp [stopTimer]

section
variable (s : State)

@[simp] theorem State.stopCheck_cfg : s.stopCheck.cfg = s.cfg := by rw [stopCheck_eq]
@[simp] theorem State.stopCheck_step : s.stopCheck.step = s.step := by rw [stopCheck_eq]
@[simp] theorem State.stopCheck_rot : s.stopCheck.rot = s.rot := by rw [stopCheck_eq]
@[simp] theorem State.stopCheck_run : s.stopCheck.run = if s.milestone = .none then s.run else .stopped := by
  rw [stopCheck_eq]
@[simp] theorem State.stopCheck_latch : s.stopCheck.latch = s.latch := by rw [stopCheck_eq]
@[simp] theorem State.stopCheck_ctx : s.stopCheck.ctx = s.ctx := by rw [stopCheck_eq]
@[simp] theorem State.stopCheck_ret : s.stopCheck.ret = s.ret := by rw [stopCheck_eq]
@[simp] theorem State.stopCheck_trace : s.stopCheck.trace = s.trace := by rw [stopCheck_eq]
@[simp] theorem State.stopCheck_calls : s.stopCheck.calls = s.calls := by rw [stopCheck_eq]
@[simp] theorem State.stopCheck_inbox : s.stopCheck.inbox = s.inbox := by rw [stopCheck_eq]
@[simp] theorem State.stopCheck_free : s.stopCheck.free = s.free := by rw [stopCheck_eq]
end

/-- Everything a milestone action changes: `ROT` for a reversal, `RUN`, and the calls (R170). -/
theorem State.runAction_eq (s : State) (a : Action) :
    s.runAction a = { s with
      rot := if a = .reverseAndReport then opposite s.rot else s.rot
      run := if a = .none then s.run else .running
      calls := s.calls ++ (if a = .none then [] else
        [.report a (if a = .reverseAndReport then opposite s.rot else s.rot)
          (if a = .homeAndReport then 0 else s.magnitude), .dwell s.cfg.dwellMs]) } := by
  cases a <;> simp [runAction, report, dwell, startTimer, flip]

/-- `elapse` changes the pending flag, while `Running` only (R143, R181). -/
theorem State.elapse_eq (s : State) :
    s.elapse = { s with tickPending := if s.run = .running then true else s.tickPending } := by
  unfold elapse
  split <;> simp [*]

/-- In range of the register's most negative value exclusive, the magnitude is the absolute value (R19). -/
theorem State.magnitude_eq (s : State) (h : s.step ≠ -(2 ^ (s.cfg.stepWidth - 1) : Int)) :
    s.magnitude = |s.step| := by
  rw [magnitude, if_neg h, Int.natCast_natAbs]

/-- The magnitude and the milestone depend on the configuration and `STEP` alone. -/
theorem State.magnitude_congr {s t : State} (hc : s.cfg = t.cfg) (hn : s.step = t.step) : s.magnitude = t.magnitude := by
  unfold magnitude
  rw [hc, hn]

theorem State.milestone_congr {s t : State} (hc : s.cfg = t.cfg) (hn : s.step = t.step) : s.milestone = t.milestone := by
  rw [milestone, milestone, State.magnitude_congr hc hn, hc]

@[simp] theorem State.drive_milestone (s : State) (p : Pattern) : (s.drive p).milestone = s.milestone :=
  State.milestone_congr (s.drive_cfg p) (s.drive_step p)

/-- A well-formed configuration, condition by condition (R15). -/
theorem configOk_iff (c : Config) :
    configOk c = true ↔ 1 ≤ c.unit ∧ 10 * c.unit < 2 ^ (c.stepWidth - 1) ∧
      (∀ x, legal (phasePattern c x) = true) ∧ ∀ phases ∈ phaseTable c.mode, legal (pat c phases) = true := by
  simp only [configOk, Bool.and_eq_true, decide_eq_true_eq, List.all_eq_true, and_assoc]
  constructor
  · rintro ⟨h1, h2, h3, h4⟩
    exact ⟨h1, h2, fun x => h3 x (by cases x <;> simp), h4⟩
  · rintro ⟨h1, h2, h3, h4⟩
    exact ⟨h1, h2, fun x _ => h3 x, h4⟩

/-- The reversal position of a well-formed configuration is positive and fits the register (R15). -/
theorem configOk_unit {c : Config} (h : configOk c = true) :
    1 ≤ c.unit ∧ 10 * (c.unit : Int) < 2 ^ (c.stepWidth - 1) :=
  have hc := (configOk_iff c).mp h
  ⟨hc.1, by exact_mod_cast hc.2.1⟩

theorem tableIndex_lt (n : Int) (m : DriveMode) : tableIndex n (tableLen m) < (phaseTable m).length := by
  have h : ∀ l : Nat, 0 < l → tableIndex n l < l := fun l hl => by
    have h1 := Int.emod_nonneg n (by omega : (l : Int) ≠ 0)
    have h2 := Int.emod_lt_of_pos n (by omega : (0 : Int) < l)
    unfold tableIndex
    omega
  cases m <;> exact h _ (by decide)

/-- The entries of the built mode's table are legal (R15), so the `APPLY` of a `TICK` cannot fault (R121). -/
theorem selected_legal {c : Config} (h : configOk c = true) (n : Int) : legal (selected c c.mode n) = true := by
  have hl := tableIndex_lt n c.mode
  rw [selected, tableEntry, List.getD_eq_getElem?_getD, List.getElem?_eq_getElem hl]
  exact ((configOk_iff c).mp h).2.2.2 _ (List.getElem_mem hl)

/-- Where `classify` answers `None` (R160). -/
theorem classify_eq_none (c : Config) (a : Int) :
    classify c a = .none ↔ a ≠ 0 ∧ a ≠ c.unit ∧ a ≠ 10 * (c.unit : Int) := by
  unfold classify
  split
  · split <;> simp_all
  · split
    · simp_all
    · split <;> simp_all

end Sys2Proof.Machine
end

