-- ==== Sys2Proof/Laws/PerInstr.lean ====
section
/-! SUPPORT. Statements made per instruction about its syntax: the encoder's word meets the mask and match of the
instruction's row of spec/opcode_table.json. -/

namespace Sys2Proof.Laws.TableRow

/-- The `mask` of the instruction's row. -/
def rowMask : Instr → CmdWord
  | .apply _ | .offw _ | .onw _ => 0xF00
  | .pinw _ _ => 0xFF0
  | .tick | .advWave | .advFull | .advHalf | .brake | .dt | .stop | .resume | .classify | .poll | .actNone | .actStop
  | .actRev | .actHome | .rdstep | .rdlatch => 0xFFF

/-- The `match` of the instruction's row. -/
def rowMatch : Instr → CmdWord
  | .tick => 0x100
  | .advWave => 0x200
  | .advFull => 0x201
  | .advHalf => 0x202
  | .apply _ => 0x300
  | .brake => 0x400
  | .offw _ => 0x500
  | .onw _ => 0x600
  | .dt => 0x700
  | .stop => 0x800
  | .resume => 0x900
  | .classify => 0xA00
  | .poll => 0xB00
  | .actNone => 0xC00
  | .actStop => 0xC01
  | .actRev => 0xC02
  | .actHome => 0xC03
  | .rdstep => 0xD00
  | .rdlatch => 0xE00
  | .pinw _ _ => 0xF00

/-- The word of a well-formed instruction meets its row. -/
def Statement (i : Instr) : Prop := i.wf = true → encode i &&& rowMask i = rowMatch i

theorem tick : Statement .tick := fun _ => by decide
theorem advWave : Statement .advWave := fun _ => by decide
theorem advFull : Statement .advFull := fun _ => by decide
theorem advHalf : Statement .advHalf := fun _ => by decide
theorem apply (p : Pattern) : Statement (.apply p) :=
  fun _ => (by decide : ∀ f : Pattern, cmdWord 0x3 f &&& 0xF00 = 0x300) p
theorem brake : Statement .brake := fun _ => by decide
theorem offw (mask : Pattern) : Statement (.offw mask) :=
  fun _ => (by decide : ∀ f : Pattern, cmdWord 0x5 f &&& 0xF00 = 0x500) mask
theorem onw (mask : Pattern) : Statement (.onw mask) :=
  fun _ => (by decide : ∀ f : Pattern, cmdWord 0x6 f &&& 0xF00 = 0x600) mask
theorem dt : Statement .dt := fun _ => by decide
theorem stop : Statement .stop := fun _ => by decide
theorem resume : Statement .resume := fun _ => by decide
theorem classify : Statement .classify := fun _ => by decide
theorem poll : Statement .poll := fun _ => by decide
theorem actNone : Statement .actNone := fun _ => by decide
theorem actStop : Statement .actStop := fun _ => by decide
theorem actRev : Statement .actRev := fun _ => by decide
theorem actHome : Statement .actHome := fun _ => by decide
theorem rdstep : Statement .rdstep := fun _ => by decide
theorem rdlatch : Statement .rdlatch := fun _ => by decide

theorem pinw (b : Nat) (v : Bool) : Statement (.pinw b v) := by
  intro h
  have hb : b < 8 := of_decide_eq_true h
  interval_cases b <;> cases v <;> decide

end Sys2Proof.Laws.TableRow
end

