-- ==== Sys2Proof/Tests/Slice0.lean ====
section
/-! SUPPORT. Tests with expected results from spec/95_test_vectors.md and the rules' worked examples, the refusal of
ill-formed terms, and a witness for the hypotheses of each statement of Certificates/Slice0/Obligations.lean. -/

namespace Sys2Proof.Tests

open Sys2Proof.Machine

/-- The next state of an outcome, if there is one. -/
def got : Out → Option State
  | .next s => some s
  | .fault _ => none
  | .refused _ => none

/-- The reason of a refusal, if it is one. -/
def refusal : Out → Option Refusal
  | .refused r => some r
  | .next _ => none
  | .fault _ => none

/-- Whether an outcome is the fault ShootThrough. -/
def shorted : Out → Bool
  | .fault .shootThrough => true
  | .next _ => false
  | .refused _ => false

/-- This hardware at the given registers, in the given context. -/
def at_ (n : Int) (r : Rotation) (m : MotionState) (l : Pattern) (c : Ctx) : State :=
  { State.reset with step := n, rot := r, run := m, latch := l, ctx := c }

/-- `at_` built with another drive mode. -/
def inMode (m : DriveMode) (s : State) : State := { s with cfg := { s.cfg with mode := m } }

/-- `at_` built with per-pin writes. -/
def perPin (s : State) : State := { s with cfg := { s.cfg with granularity := .perPin } }

/-- `at_` built with the high-side and the low-side switches on a port each. -/
def onTwoPorts (s : State) : State := { s with cfg := { s.cfg with portOf := ⟨1, 1, 1, 1, 0, 0, 0, 0⟩ } }

/-- The registers STEP, ROT, RUN, LATCH. -/
def regs (s : State) : Int × Rotation × MotionState × Pattern := (s.step, s.rot, s.run, s.latch)

/-! ### Well-formedness: each check refuses an ill-formed term -/

theorem test_wf_pinw_bit7 : (Instr.pinw 7 true).wf = true := by decide
theorem test_wf_refuses_pinw_bit8 : (Instr.pinw 8 true).wf = false := by decide
theorem test_config_reference : configOk Config.reference = true := by decide
theorem test_config_refuses_unit0 : configOk { Config.reference with unit := 0 } = false := by decide
theorem test_config_accepts_unit1 : configOk { Config.reference with unit := 1 } = true := by decide
theorem test_config_refuses_narrow_step : configOk { Config.reference with stepWidth := 11 } = false := by decide
theorem test_config_accepts_12_bit_step : configOk { Config.reference with stepWidth := 12 } = true := by decide
/-- 95_test_vectors P6. -/
theorem test_config_refuses_shorted_phase :
    configOk { Config.reference with phasePattern := ⟨0x88, 0x41, 0x28, 0x14⟩ } = false := by decide
/-- R15: the entries of the mode's table are checked too. -/
theorem test_config_refuses_shorted_entry :
    configOk { Config.reference with phasePattern := ⟨0x80, 0x08, 0x40, 0x20⟩ } = false := by decide
theorem test_config_entry_not_in_wave :
    configOk { Config.reference with mode := .wave, phasePattern := ⟨0x80, 0x08, 0x40, 0x20⟩ } = true := by decide
theorem test_step_refuses_bad_config :
    refusal (step { State.reset with cfg := { Config.reference with unit := 0 } }) = some .badConfig := by decide

/-! ### Decoding: 95_test_vectors section 2.7, each constructor by a word written out from 30_encoding R84 -/

theorem test_decode_tick : decode 0b0001_00000000 = some .tick := by decide
theorem test_decode_advWave : decode 0b0010_000000_00 = some .advWave := by decide
theorem test_decode_advFull : decode 0b0010_000000_01 = some .advFull := by decide
theorem test_decode_advHalf : decode 0b0010_000000_10 = some .advHalf := by decide
theorem test_decode_apply : decode 0b0011_11000011 = some (.apply 0xC3) := by decide
theorem test_decode_brake : decode 0b0100_00000000 = some .brake := by decide
theorem test_decode_offw : decode 0b0101_00111100 = some (.offw 0x3C) := by decide
theorem test_decode_onw : decode 0b0110_11000011 = some (.onw 0xC3) := by decide
theorem test_decode_dt : decode 0b0111_00000000 = some .dt := by decide
theorem test_decode_stop : decode 0b1000_00000000 = some .stop := by decide
theorem test_decode_resume : decode 0b1001_00000000 = some .resume := by decide
theorem test_decode_classify : decode 0b1010_00000000 = some .classify := by decide
theorem test_decode_poll : decode 0b1011_00000000 = some .poll := by decide
theorem test_decode_actNone : decode 0b1100_000000_00 = some .actNone := by decide
theorem test_decode_actStop : decode 0b1100_000000_01 = some .actStop := by decide
theorem test_decode_actRev : decode 0b1100_000000_10 = some .actRev := by decide
theorem test_decode_actHome : decode 0b1100_000000_11 = some .actHome := by decide
theorem test_decode_rdstep : decode 0b1101_00000000 = some .rdstep := by decide
theorem test_decode_rdlatch : decode 0b1110_00000000 = some .rdlatch := by decide
theorem test_decode_pinw_6_1 : decode 0b1111_0000_110_1 = some (.pinw 6 true) := by decide
theorem test_decode_pinw_7_0 : decode 0b1111_0000_111_0 = some (.pinw 7 false) := by decide
theorem test_decode_reserved :
    [0x000#12, 0x0FF, 0x101, 0x203, 0x204, 0x401, 0x701, 0x8FF, 0xA01, 0xC04, 0xD80, 0xE01, 0xF10].all
      (fun w => decode w == none) = true := by decide
theorem test_encode_pinw : encode (.pinw 6 true) = 0xF0D := by decide
theorem test_table_word_needs_12_bits : decodeTableWord 16 0x1100 = none := by decide
theorem test_table_word : decodeTableWord 16 0x3C3 = some (.apply 0xC3) := by decide

/-- Every row's word is the next operation after reset, and completes. -/
theorem test_placed_words_complete :
    [0x100, 0x200, 0x201, 0x202, 0x300, 0x3C3, 0x400, 0x500, 0x600, 0x700, 0x800, 0x900, 0xA00, 0xB00, 0xC00, 0xC01,
      0xC02, 0xC03, 0xD00, 0xE00, 0xF00].all (fun w => (got (step (State.reset.withFetchWord 16 w))).isSome) = true := by
  decide

/-! ### The written trace: 95_test_vectors P1, 30_encoding R88 -/

/-- P1, tick 4, the command words. -/
theorem test_p1_tick4 :
    ((at_ 3 .cw .running 0x41 .timer).expand .tick).map (fun l => encode l.2) =
      [0x100, 0x202, 0x369, 0xE00, 0x596, 0x700, 0x669, 0xA00] := by decide
/-- P2, tick 200 stops. -/
theorem test_p2_tick200 :
    ((at_ 199 .cw .running 0x14 .timer).expand .tick).map (fun l => encode l.2) =
      [0x100, 0x202, 0x396, 0xE00, 0x569, 0x700, 0x696, 0xA00, 0x800] := by decide
theorem test_text_pinw : instrText (.pinw 7 true) = "PINW 7, 1" := by decide
theorem test_text_apply : traceText [(1, .apply 0xC3)] = ["  APPLY 0xC3"] := by decide

/-! ### Tables and the index: 95_test_vectors 2.1, 30_encoding R80 -/

theorem test_index_negative : [-1, -2, -8, -9, -1999].map (fun n => tableIndex n 8) = [7, 6, 0, 7, 1] := by decide
theorem test_index_four : [-1, -4, -5, 9].map (fun n => tableIndex n 4) = [3, 0, 3, 1] := by decide
theorem test_full_table : (List.range 4).map (tableEntry Config.reference .fullStep) = [0xC3, 0x69, 0x3C, 0x96] := by
  decide
theorem test_wave_table : (List.range 4).map (tableEntry Config.reference .wave) = [0x82, 0x41, 0x28, 0x14] := by decide

/-! ### Coil Driver: 95_test_vectors 2.3 -/

theorem test_apply_ab_bc : (got (exec (.apply 0x69) (at_ 200 .cw .stopped 0xC3 .foreground))).map
    (fun t => (t.latch, t.trace)) = some (0x69, [.off 0x96, .gap, .on 0x69]) := by decide
theorem test_apply_shorted : shorted (exec (.apply 0x88) (at_ 200 .cw .stopped 0xC3 .foreground)) = true := by decide
theorem test_brake_from_a : (got (exec .brake (at_ 200 .cw .stopped 0x82 .foreground))).map
    (fun t => (t.latch, t.trace)) = some (0x0F, [.off 0xF0, .gap, .on 0x0F]) := by decide
theorem test_brake_twice : (got (exec .brake (at_ 200 .cw .stopped 0x0F .foreground))).map State.trace = some [] := by
  decide
/-- P6. -/
theorem test_brake_while_running :
    refusal (exec .brake (at_ 100 .cw .running 0x28 .foreground)) = some .foregroundDriveWhileRunning := by decide
theorem test_offw : (got (exec (.offw 0x7D) (at_ 0 .cw .running 0x96 (.inside .apply)))).map State.latch = some 0x82 := by
  decide
theorem test_offw_alone : refusal (exec (.offw 0x7D) (at_ 0 .cw .running 0x96 .foreground)) = some .reservedEncoding := by
  decide
theorem test_onw : (got (exec (.onw 0x69) (at_ 0 .cw .running 0x41 (.inside .apply)))).map State.latch = some 0x69 := by
  decide
theorem test_dt : (got (exec .dt (at_ 0 .cw .running 0x41 (.inside .apply)))).map (fun t => (t.latch, t.trace)) =
    some (0x41, [.gap]) := by decide
theorem test_pinw_sets : (got (exec (.pinw 6 true) (perPin (at_ 0 .cw .running 0x82 (.inside .apply))))).map State.latch =
    some 0xC2 := by decide
theorem test_pinw_clears :
    (got (exec (.pinw 7 false) (perPin (at_ 0 .cw .running 0xC2 (.inside .apply))))).map State.latch = some 0x42 := by decide
/-- Section 2.3, per-pin mode, for the order 7, 4, 2, 1: the latch after each write. -/
theorem test_per_pin_in_between : [7, 4, 2, 1].foldl (fun ls b => ls ++ [writeLatch (ls.getLastD 0xC3) (.pin b false)]) [] =
    [0x43#8, 0x43, 0x43, 0x41] := by decide
/-- The pins of section 2.3 in some order: those of the pattern's zeros, then those of its ones. -/
theorem test_per_pin_bits : (bitsAt 0x69 false, bitsAt 0x69 true) = ([1, 2, 4, 7], [0, 3, 5, 6]) := by decide
/-- R54: two ports, high sides on one and low sides on the other. -/
theorem test_two_ports : portGroups ⟨1, 1, 1, 1, 0, 0, 0, 0⟩ = [0x0F, 0xF0] := by decide
theorem test_two_ports_offw : portWrites { Config.reference with portOf := ⟨1, 1, 1, 1, 0, 0, 0, 0⟩ } 0 .off 0x7D =
    [.off 0x0D, .off 0x70] := by decide
/-- 70_reset R222: no `BRAKE` is in progress while `Running`. -/
theorem test_apply_of_brake_while_running :
    refusal (exec (.apply 0x0F) (at_ 100 .cw .running 0x82 (.inside .brake))) = some .foregroundDriveWhileRunning := by
  decide
theorem test_rdlatch : (got (exec .rdlatch (at_ 200 .cw .stopped 0x0F .foreground))).map State.ret = some (.latch 0x0F) := by
  decide

/-! ### Phase Sequencer: 95_test_vectors 2.4 -/

theorem test_adv_wave : (got (exec .advWave (inMode .wave (at_ 5 .cw .running 0x82 (.inside .tick))))).map
    (fun t => (t.ret, t.latch, t.trace, t.step)) = some (.adv 6 0x41, 0x41, [.off 0xBE, .gap, .on 0x41], 5) := by decide
theorem test_adv_full : (got (exec .advFull (inMode .fullStep (at_ (-1) .ccw .running 0xC3 (.inside .tick))))).map
    (fun t => (t.ret, t.latch)) = some (.adv (-2) 0x96, 0x96) := by decide
theorem test_adv_half : (got (exec .advHalf (at_ (-9) .cw .running 0x14 (.inside .tick)))).map
    (fun t => (t.ret, t.latch)) = some (.adv (-8) 0x96, 0x96) := by decide
/-- 20_memory R60 (a): no `TICK` occurs while `Stopped`. -/
theorem test_adv_while_stopped :
    refusal (exec .advHalf (at_ 200 .cw .stopped 0x96 (.inside .tick))) = some .reservedEncoding := by decide
theorem test_adv_other_mode : refusal (exec .advWave (at_ 0 .cw .running 0x00 (.inside .tick))) = some .reservedEncoding := by
  decide

/-! ### Motion State Machine: 95_test_vectors 2.5 -/

theorem test_tick_reaches_200 : (got (exec .tick (at_ 199 .cw .running 0x14 .timer))).map regs =
    some (200, .cw, .stopped, 0x96) := by decide
theorem test_tick_leaves_limit : (got (exec .tick (at_ 2000 .ccw .running 0x96 .timer))).map regs =
    some (1999, .ccw, .running, 0x82) := by decide
theorem test_tick_reaches_minus_2000 : (got (exec .tick (at_ (-1999) .ccw .running 0x41 .timer))).map regs =
    some (-2000, .ccw, .stopped, 0xC3) := by decide
theorem test_tick_passes_1800 : (got (exec .tick (at_ 1799 .cw .running 0x14 .timer))).map regs =
    some (1800, .cw, .running, 0x96) := by decide
theorem test_tick_while_stopped : (got (exec .tick (at_ 200 .cw .stopped 0x96 .timer))).map regs =
    some (200, .cw, .stopped, 0x96) := by decide
theorem test_stop : (got (exec .stop { at_ 200 .cw .running 0x96 (.inside .tick) with tickPending := true })).map
    (fun t => (t.run, t.tickPending)) = some (.stopped, false) := by decide
theorem test_resume : (got (exec .resume (at_ 200 .cw .stopped 0x96 (.inside .act)))).map regs =
    some (200, .cw, .running, 0x96) := by decide
theorem test_rdstep : (got (exec .rdstep (at_ (-200) .cw .stopped 0x96 .foreground))).map State.ret = some (.step (-200)) := by
  decide

/-! ### Milestone Dispatcher: 95_test_vectors 2.6 -/

theorem test_classify_no_home : classify { Config.reference with homeVariant := false } 0 = .stopAndReport := by decide
theorem test_classify_u50 : [0, 50, 450, 500, 200, 2000].map (classify { Config.reference with unit := 50 }) =
    [.homeAndReport, .stopAndReport, .none, .reverseAndReport, .none, .none] := by decide
theorem test_classify_op : (got (exec .classify (at_ (-2000) .cw .running 0x96 (.inside .tick)))).map State.ret =
    some (.action .reverseAndReport) := by decide
theorem test_poll_running : (got (exec .poll (at_ 0 .cw .running 0x00 .foreground))).map (fun t => (regs t, t.calls)) =
    some ((0, .cw, .running, 0x00), []) := by decide
theorem test_poll_reverses : (got (exec .poll (at_ (-2000) .ccw .stopped 0xC3 .foreground))).map (fun t => (regs t, t.calls)) =
    some ((-2000, .cw, .running, 0xC3), [.report .reverseAndReport .cw 2000, .dwell 1000]) := by decide
theorem test_poll_stuck : (got (exec .poll (at_ 400 .cw .stopped 0x96 .foreground))).map regs =
    some (400, .cw, .stopped, 0x96) := by decide
theorem test_act_stop : (got (exec .actStop (at_ (-200) .ccw .stopped 0xC3 (.inside .poll)))).map (fun t => (regs t, t.calls)) =
    some ((-200, .ccw, .running, 0xC3), [.report .stopAndReport .ccw 200, .dwell 1000]) := by decide
theorem test_act_rev : (got (exec .actRev (at_ 2000 .cw .stopped 0x96 (.inside .poll)))).map regs =
    some (2000, .ccw, .running, 0x96) := by decide
theorem test_act_home : (got (exec .actHome (at_ 0 .ccw .stopped 0xC3 (.inside .poll)))).map (fun t => (regs t, t.calls)) =
    some ((0, .ccw, .running, 0xC3), [.report .homeAndReport .ccw 0, .dwell 1000]) := by decide
theorem test_act_none : (got (exec .actNone (at_ 400 .cw .stopped 0x96 (.inside .poll)))).map regs =
    some (400, .cw, .stopped, 0x96) := by decide

/-! ### Steps -/

theorem test_step_idles_at_reset : got (step State.reset) = some State.reset := by decide
/-- 60_exceptions R181: an elapsed period sets the flag. -/
theorem test_step_elapse : (got (step { State.reset with inbox := [.elapse] })).map
    (fun t => (t.tickPending, t.step, t.inbox)) = some (true, 0, []) := by decide
/-- R183: the pending tick goes before the foreground's word. -/
theorem test_step_tick_first : (got (step { State.reset with inbox := [.issue .foreground 0xD00], tickPending := true })).map
    (fun t => (t.step, t.tickPending, t.inbox)) = some (1, false, [.issue .foreground 0xD00]) := by decide
/-- 60_exceptions R183: it goes before the next access of a foreground operation too. -/
theorem test_step_tick_before_poll_access :
    (got (step { State.reset with inbox := [.issue (.inside .poll) 0xD00], tickPending := true })).map State.step =
      some 1 := by decide
/-- R185, 70_reset R221: no `TICK` nests in one in progress, and a second period in it is lost. -/
theorem test_step_second_period_lost :
    let s := { at_ 1 .cw .running 0x82 (.inside .tick) with
      tickPending := true, inbox := [.elapse, .issue (.inside .tick) 0xA00] }
    got (step s) = some { s with inbox := [.issue (.inside .tick) 0xA00] } := by decide
theorem test_step_tick_word_from_foreground :
    refusal (step { State.reset with inbox := [.issue .foreground 0x100] }) = some .reservedEncoding := by decide
theorem test_signals : ((at_ (-1) .ccw .running 0x96 .foreground).stepOut.toNat,
    (at_ (-1) .ccw .running 0x96 .foreground).coil, (at_ (-1) .ccw .running 0x96 .foreground).timerEn,
    (at_ (-1) .ccw .running 0x96 .foreground).rotOut) = (0xFFFFFFFF, 0x96#8, true, true) := by decide
theorem test_report_payload : (Call.report .reverseAndReport .ccw 5).payload 4 = some 0b10_1_0101#7 := by decide

/-! ### Witnesses: concrete states and operands that meet the hypotheses of each statement -/

theorem witness_DecodeOfEncodeIsIdentity : (Instr.pinw 7 true).wf = true ∧ (Instr.pinw 0 false).wf = true := by decide
theorem witness_EncodeOfDecodeIsIdentity : decode 0xF0F = some (.pinw 7 true) := by decide
theorem witness_ReservedWordsAreRefused :
    let s := { State.reset with inbox := [.issue .foreground 0xF10] }
    configOk s.cfg = true ∧ s.interruptDue = false ∧ decode 0xF10 = none := by decide
theorem witness_TableIndexIsTheNonNegativeResidue :
    0 < 8 ∧ 7 < 8 ∧ (8 : Int) ∣ -9 - ((7 : Nat) : Int) ∧ 0 < 1 ∧ (1 : Int) ∣ -4 - ((0 : Nat) : Int) := by decide
theorem witness_TableIndexIsTheLowBitsOfStep : 3 ≤ (at_ (-1) .cw .running 0x00 .foreground).cfg.stepWidth := by decide
theorem witness_PhaseTablesCycleInOrder :
    (3, Phase.d) ∈ [(0, Phase.a), (1, .b), (2, .c), (3, .d)] ∧ (-1 : Int) % 4 = ((3 : Nat) : Int) ∧
    (0, Phase.a, Phase.b) ∈ [(0, Phase.a, Phase.b), (1, .b, .c), (2, .c, .d), (3, .d, .a)] ∧
    (-4 : Int) % 4 = ((0 : Nat) : Int) := by decide
theorem witness_ClassifyMapsTheThreeMilestones :
    1 ≤ ({ Config.reference with unit := 1 } : Config).unit ∧ Config.reference.unit = 200 ∧
    Config.reference.homeVariant = true ∧ ({ Config.reference with homeVariant := false } : Config).unit = 200 ∧
    (2 : Int) ≠ 0 ∧ (2 : Int) ≠ ((1 : Nat) : Int) ∧ (2 : Int) ≠ 10 * ((1 : Nat) : Int) := by decide
theorem witness_MilestoneIgnoresTheSignOfStep :
    let s := at_ (-(2 ^ 31) + 1) .ccw .running 0x82 .foreground
    s.step < (2 ^ (s.cfg.stepWidth - 1) : Int) ∧ -(2 ^ (s.cfg.stepWidth - 1) : Int) < s.step := by decide
theorem witness_PowerOnResetsEveryRegister :
    let s := { at_ 200 .ccw .stopped 0x96 .foreground with inbox := [.rst] }
    configOk s.cfg = true ∧ s.inbox = .rst :: [] ∧ s.interruptDue = false := by decide
theorem witness_StepRunsTheIssuedOperation :
    let s := { at_ 200 .cw .stopped 0x96 .foreground with inbox := [.issue .foreground 0xB00, .elapse] }
    configOk s.cfg = true ∧ s.inbox = .issue .foreground 0xB00 :: [.elapse] ∧ s.interruptDue = false ∧
      decode 0xB00 = some .poll := by decide
theorem witness_PendingPeriodRunsTick :
    let s := { State.reset with tickPending := true, inbox := [.issue .foreground 0xD00] }
    configOk s.cfg = true ∧ s.tickPending = true ∧ s.run = .running ∧
      tickGoesOn s.inbox = false ∧ (∀ (w : CmdWord) (rest : List Event), s.inbox ≠ .issue .timer w :: rest) :=
  ⟨by decide, rfl, rfl, rfl, by simp⟩
/-- A `TICK` issued sub-step by sub-step, and a period that elapses in it. -/
theorem witness_PendingPeriod_inside_a_tick :
    let s := { State.reset with tickPending := true, inbox := [.issue (.inside .apply) 0x700] }
    let u := { s with inbox := [.elapse, .issue (.inside .tick) 0xA00] }
    configOk s.cfg = true ∧ s.tickPending = true ∧ s.run = .running ∧
      Ctx.inside .apply ∈ [Ctx.inside .tick, .inside .adv, .inside .apply] ∧
      s.inbox = .issue (.inside .apply) 0x700 :: [] ∧ decode 0x700 = some .dt ∧
      tickGoesOn [.issue (.inside .tick) 0xA00] = true ∧
      u.inbox = .elapse :: [.issue (.inside .tick) 0xA00] := by decide
theorem witness_ElapsedPeriodIsRememberedOnlyWhileRunning :
    let s := { State.reset with inbox := [.elapse] }
    let u := { at_ 200 .cw .stopped 0x96 .foreground with inbox := [.elapse] }
    (configOk s.cfg = true ∧ s.interruptDue = false ∧ s.run = .running) ∧
    (configOk u.cfg = true ∧ u.interruptDue = false ∧ u.run = .stopped) := by decide
theorem witness_PlacedWordRunsNext :
    decodeTableWord 16 0x400 = some .brake ∧ configOk (State.reset.readyFor .brake).cfg = true ∧
    decodeTableWord 16 0x201 = some .advFull ∧ configOk (State.reset.readyFor .advFull).cfg = true := by decide
theorem witness_ApplyDrivesTheLatchToThePattern :
    let s := at_ 200 .cw .stopped 0x96 .foreground
    (s.ctx = .foreground ∧ s.run = .stopped) ∧ legal 0x88 = false ∧ legal 0x82 = true ∧ s.latch ≠ 0x82 ∧
    legal 0x96 = true ∧ s.latch = 0x96 ∧ s.cfg.granularity = .bulk ∧ onOnePort s.cfg.portOf = true ∧
    ((at_ 0 .cw .running 0x00 (.inside .adv)).ctx = .inside .adv ∧
      (at_ 0 .cw .running 0x00 (.inside .adv)).run = .running) ∧
    ((at_ 0 .cw .stopped 0x00 (.inside .brake)).ctx = .inside .brake ∧
      (at_ 0 .cw .stopped 0x00 (.inside .brake)).run = .stopped) := by decide
theorem witness_OffWritesPrecedeTheGapAndOnWritesFollow :
    let s := at_ 200 .cw .stopped 0xC3 .foreground
    (∃ t, exec (.apply 0x69) s = .next t) ∧ s.latch ≠ 0x69 ∧ s.cfg.granularity = .bulk ∧
    onOnePort s.cfg.portOf = true ∧ s.latch.getLsbD 7 = true ∧ (0x69#8).getLsbD 7 = false :=
  ⟨⟨_, rfl⟩, by decide, rfl, by decide, by decide, by decide⟩
theorem witness_OffWrites_perPin :
    let s := perPin (at_ 200 .cw .stopped 0xC3 .foreground)
    (∃ t, exec (.apply 0x69) s = .next t) ∧ s.latch ≠ 0x69 ∧ s.cfg.granularity = .perPin :=
  ⟨⟨_, rfl⟩, by decide, rfl⟩
theorem witness_BulkWritesGoPortByPort :
    let s := onTwoPorts (at_ 200 .cw .stopped 0xC3 .foreground)
    (∃ t, exec (.apply 0x69) s = .next t) ∧ s.latch ≠ 0x69 ∧ s.cfg.granularity = .bulk ∧
    portGroups s.cfg.portOf = [0x0F, 0xF0] ∧ (onTwoPorts (at_ 0 .cw .running 0x82 (.inside .apply))).ctx = .inside .apply :=
  ⟨⟨_, rfl⟩, by decide, rfl, by decide, rfl⟩
theorem witness_EveryInFlightLatchIsLegal :
    legal (at_ 200 .cw .stopped 0x0F .foreground).latch = true ∧ legal 0xF0 = true := by decide
theorem witness_ApplyTwiceWritesOnce :
    let s := at_ 200 .cw .stopped 0x0F .foreground
    (∃ t, exec (.apply 0x82) s = .next t) ∧ (∃ t, exec (.apply 0x0F) s = .next t) ∧ s.latch = 0x0F :=
  ⟨⟨_, rfl⟩, ⟨_, rfl⟩, rfl⟩
theorem witness_BrakeAppliesTheShortBrake :
    let s := at_ 200 .cw .stopped 0x96 .foreground
    s.ctx = .foreground ∧ s.run = .stopped := by decide
theorem witness_SubStepsOfApply :
    let s := perPin (at_ 0 .cw .running 0x82 (.inside .apply))
    s.ctx = .inside .apply ∧ s.cfg.granularity = .perPin ∧ 7 < 8 ∧
    (at_ 0 .cw .running 0x82 (.inside .apply)).cfg.granularity = .bulk ∧
    onOnePort (at_ 0 .cw .running 0x82 (.inside .apply)).cfg.portOf = true := by decide
theorem witness_ReadsAnswerTheRegister :
    (at_ 2000 .cw .stopped 0x96 .foreground).ctx = .foreground ∧
    (at_ 2000 .cw .stopped 0x96 (.inside .apply)).ctx = .inside .apply ∧
    (at_ 2000 .cw .stopped 0x96 (.inside .poll)).ctx = .inside .poll := by decide
theorem witness_ReadsChangeNothingAndWritesAreIdempotent :
    let s := at_ 0 .cw .running 0x82 (.inside .apply)
    (∃ t, exec .rdlatch s = .next t) ∧ (∃ t u, exec (.offw 0x80) s = .next t ∧ exec (.offw 0x80) t = .next u) ∧
    (∃ t u, exec (.pinw 7 false) (perPin s) = .next t ∧ exec (.pinw 7 false) t = .next u) :=
  ⟨⟨_, rfl⟩, ⟨_, _, rfl, rfl⟩, ⟨_, _, rfl, rfl⟩⟩
theorem witness_AdvanceAppliesTheEntryOfTheOldIndex :
    let s := inMode .wave (at_ (-1) .ccw .running 0x82 (.inside .tick))
    let u := inMode .fullStep (at_ (-1) .ccw .running 0x96 (.inside .tick))
    let v := at_ 7 .cw .running 0x14 (.inside .tick)
    (s.ctx = .inside .tick ∧ s.run = .running ∧ s.cfg.mode = .wave ∧ configOk s.cfg = true ∧
      s.latch ≠ tableEntry s.cfg .wave (tableIndex s.step 4)) ∧
    (u.ctx = .inside .tick ∧ u.run = .running ∧ u.cfg.mode = .fullStep ∧ configOk u.cfg = true ∧
      u.latch = tableEntry u.cfg .fullStep (tableIndex u.step 4)) ∧
    (v.ctx = .inside .tick ∧ v.run = .running ∧ v.cfg.mode = .halfStep ∧ configOk v.cfg = true ∧
      v.latch ≠ tableEntry v.cfg .halfStep (tableIndex v.step 8)) := by decide
theorem witness_ChainedAdvancesCountTheirCalls : configOk State.reset.cfg = true ∧ State.reset.run = .running ∧
    0 < 8 := by decide
theorem witness_TickAppliesStoresAndChecks :
    let s := at_ 199 .cw .running 0x14 .timer
    s.ctx = .timer ∧ s.run = .running ∧ configOk s.cfg = true ∧ (200 : Int) = s.step + sign s.rot ∧
    (0x96 : Pattern) = tableEntry s.cfg s.cfg.mode (tableIndex s.step (tableLen s.cfg.mode)) ∧
    -(2 ^ (s.cfg.stepWidth - 1) : Int) < 200 ∧ 200 < (2 ^ (s.cfg.stepWidth - 1) : Int) := by decide
/-- The last index the register holds. -/
theorem witness_Tick_boundary :
    let s := at_ (2 ^ 31 - 2) .cw .running 0x14 .timer
    (2 ^ 31 - 1 : Int) = s.step + sign s.rot ∧ (2 ^ 31 - 1 : Int) < (2 ^ (s.cfg.stepWidth - 1) : Int) ∧
    inRegister s.cfg.stepWidth (s.step + sign s.rot) = true ∧
    inRegister s.cfg.stepWidth (2 ^ 31) = false := by decide
theorem witness_TickReturnsFromTheInterrupt :
    let s := { at_ 199 .cw .running 0x14 .timer with tickPending := true }
    s.ctx = .timer ∧ s.run = .running ∧ configOk s.cfg = true := by decide
theorem witness_TickWhileStoppedIsIgnored :
    (at_ 200 .cw .stopped 0x96 .timer).ctx = .timer ∧ (at_ 200 .cw .stopped 0x96 .timer).run = .stopped := by decide
theorem witness_StopAndResumeWriteRun :
    (at_ 200 .cw .running 0x96 (.inside .tick)).ctx = .inside .tick ∧
    (at_ 200 .cw .stopped 0x96 (.inside .act)).ctx = .inside .act := by decide
theorem witness_OnlyTickMovesStepByOne :
    let s := at_ 200 .cw .running 0x96 .timer
    (∃ t, exec .tick s = .next t) ∧ s.run = .running ∧ inRegister s.cfg.stepWidth (s.step + sign s.rot) = true ∧
    (∃ t, exec .tick (at_ 200 .cw .stopped 0x96 .timer) = .next t) ∧
    (∃ t, exec .brake (at_ 200 .cw .stopped 0x96 .foreground) = .next t) :=
  ⟨⟨_, rfl⟩, rfl, by decide, ⟨_, rfl⟩, ⟨_, rfl⟩⟩
/-- A running and a stopped state of the invariant, with agents' events to come. -/
theorem witness_Inv_running : ({ at_ 150 .cw .running 0x82 .foreground with inbox := [.elapse, .rst] } : State).Inv :=
  ⟨by decide, by decide, by decide, by decide, by decide, by decide, by decide, by decide⟩
/-- Stopped at the limit, and after the reversal running at it. -/
theorem witness_Inv_at_the_limit :
    (at_ 2000 .cw .stopped 0x96 .foreground).Inv ∧ (at_ 2000 .ccw .running 0x96 .foreground).Inv :=
  ⟨⟨by decide, by decide, by decide, by decide, by decide, by decide, by decide, by decide⟩,
   ⟨by decide, by decide, by decide, by decide, by decide, by decide, by decide, by decide⟩⟩
theorem witness_TickingHaltsExactlyAtAMilestone :
    (at_ 2000 .ccw .running 0x96 .foreground).Inv ∧ (at_ 2000 .ccw .running 0x96 .foreground).run = .running :=
  ⟨witness_Inv_at_the_limit.2, rfl⟩
theorem witness_EveryStateHasANextOperation :
    (at_ 2000 .cw .stopped 0x96 .foreground).Inv ∧ (at_ 2000 .cw .stopped 0x96 .foreground).run = .stopped ∧
    (at_ 2000 .ccw .running 0x96 .foreground).run = .running := ⟨witness_Inv_at_the_limit.1, rfl, rfl⟩
theorem witness_FirstHaltFromHomeIsOneUnitAway :
    let s := at_ 0 .ccw .running 0xC3 .foreground
    configOk s.cfg = true ∧ s.step = 0 ∧ s.run = .running ∧ 200 ≤ s.cfg.unit := by decide
theorem witness_FortyUnitsOfTurnsReturnHome :
    configOk State.reset.cfg = true ∧ State.reset.step = 0 ∧ State.reset.rot = .cw ∧ State.reset.run = .running := by
  decide
theorem witness_ClassifyAnswersTheAction :
    let s := at_ (-200) .ccw .running 0x96 (.inside .tick)
    let u := at_ 2000 .cw .stopped 0x96 (.inside .poll)
    (s.ctx = .inside .tick ∧ s.step ≠ -(2 ^ (s.cfg.stepWidth - 1) : Int)) ∧
    (u.ctx = .inside .poll ∧ u.step ≠ -(2 ^ (u.cfg.stepWidth - 1) : Int)) := by decide
theorem witness_PollActsOnlyWhileStopped :
    (at_ 0 .cw .running 0x00 .foreground).run = .running ∧
    [0, 200, 400, 2000].map (fun n => (at_ n .cw .stopped 0x96 .foreground).milestone) =
      [.homeAndReport, .stopAndReport, .none, .reverseAndReport] ∧
    (at_ 0 .cw .stopped 0x96 .foreground).run = .stopped ∧ (at_ 0 .cw .stopped 0x96 .foreground).ctx = .foreground := by
  decide
theorem witness_Actions :
    let s := at_ (-200) .ccw .stopped 0xC3 (.inside .poll)
    s.ctx = .inside .poll ∧ s.run = .stopped ∧ s.step ≠ -(2 ^ (s.cfg.stepWidth - 1) : Int) ∧ s.cfg.homeVariant = true := by
  decide
theorem witness_StuckStateStaysStuck :
    let s := at_ 400 .cw .stopped 0x96 .foreground
    s.stuck = true ∧ s.ctx = .foreground ∧ (∃ t, exec .poll s = .next t) ∧ (∃ t, exec .brake s = .next t) ∧
    (∃ t, exec .tick (s.issueAs .timer) = .next t) :=
  ⟨by decide, rfl, ⟨_, rfl⟩, ⟨_, rfl⟩, ⟨_, rfl⟩⟩
theorem witness_OperationsOutOfPlaceAreRefused :
    (at_ 0 .cw .running 0x00 .timer).ctx = .timer ∧ Instr.poll ≠ .tick ∧
    (at_ 0 .cw .running 0x00 .foreground).ctx = .foreground ∧ (at_ 0 .cw .running 0x00 .foreground).run = .running ∧
    (∀ p, Instr.stop ≠ .apply p) ∧ DriveMode.wave ≠ State.reset.cfg.mode ∧
    ({ Config.reference with homeVariant := false } : Config).homeVariant = false ∧
    Config.reference.granularity = .bulk ∧ (at_ 0 .cw .running 0x00 (.inside .brake)).ctx = .inside .brake ∧
    (at_ 0 .cw .stopped 0x00 (.inside .adv)).ctx = .inside .adv ∧
    (at_ 0 .cw .stopped 0x00 (.inside .tick)).ctx = .inside .tick ∧ (at_ 0 .cw .stopped 0x00 (.inside .tick)).run = .stopped :=
  ⟨rfl, by decide, rfl, rfl, by simp, by decide, rfl, rfl, rfl, rfl, rfl, rfl⟩
/-- An illegal `APPLY` of the running foreground: refused, where one of the stopped foreground faults. -/
theorem witness_IllegalApply_while_running :
    legal 0x88 = false ∧ (at_ 100 .cw .running 0x28 .foreground).ctx = .foreground ∧
    (at_ 100 .cw .running 0x28 .foreground).run = .running ∧ ∃ p, Instr.apply 0x88 = .apply p :=
  ⟨by decide, rfl, rfl, _, rfl⟩
theorem witness_EachContextWritesOnlyItsState :
    (∃ t, exec .tick (at_ 199 .cw .running 0x14 .timer) = .next t) ∧
    (∃ t, exec .rdstep (at_ 199 .cw .running 0x14 .foreground) = .next t) ∧
    (∃ t, exec .poll (at_ 2000 .cw .stopped 0x96 .foreground) = .next t) ∧
    (∃ t, exec .brake (at_ 2000 .cw .stopped 0x96 .foreground) = .next t ∧ t.latch ≠ 0x96) :=
  ⟨⟨_, rfl⟩, ⟨_, rfl⟩, ⟨_, rfl⟩, ⟨_, rfl, by decide⟩⟩
theorem witness_OnlyAReversalTurnsTheRotation :
    let s := at_ 2000 .cw .stopped 0x96 .foreground
    ∃ t, exec .poll s = .next t ∧ t.rot ≠ s.rot := ⟨_, rfl, by decide⟩
theorem witness_OnlyStopAndResumeChangeRun :
    let s := at_ 199 .cw .running 0x14 .timer
    let u := at_ 200 .cw .stopped 0x96 (.inside .act)
    (∃ t, exec .tick s = .next t ∧ t.run ≠ s.run) ∧ (∃ t, exec .resume u = .next t ∧ t.run ≠ u.run) :=
  ⟨⟨_, rfl, by decide⟩, ⟨_, rfl, by decide⟩⟩
theorem witness_SlowWorkStaysOutOfTheInterrupt :
    let s := at_ 200 .cw .stopped 0x96 .foreground
    ∃ t, exec .poll s = .next t ∧ t.calls ≠ s.calls := ⟨_, rfl, by decide⟩
theorem witness_ObservationsAreNeverRead :
    ∃ t, exec .tick { at_ 199 .cw .running 0x14 .timer with trace := [.gap], ret := .latch 0x14 } = .next t := ⟨_, rfl⟩
theorem witness_TickIsItsSubSteps :
    let s := at_ 199 .cw .running 0x14 .timer
    s.ctx = .timer ∧ s.run = .running ∧ ∃ t, exec .tick s = .next t := ⟨rfl, rfl, _, rfl⟩
theorem witness_ApplyIsItsSubSteps :
    let s := perPin (at_ 3 .cw .running 0xC3 (.inside .adv))
    (∃ t, exec (.apply 0x69) s = .next t) ∧ s.latch ≠ 0x69 ∧ (∃ t, exec (.apply 0xC3) s = .next t) :=
  ⟨⟨_, rfl⟩, by decide, ⟨_, rfl⟩⟩
theorem witness_PollIsItsSubSteps :
    let s := at_ (-2000) .ccw .stopped 0xC3 .foreground
    s.ctx = .foreground ∧ s.run = .stopped ∧ ∃ t, exec .poll s = .next t := ⟨rfl, rfl, _, rfl⟩
theorem witness_EveryStepKeepsTheInvariant :
    ∃ t, step { at_ 150 .cw .running 0x82 .foreground with inbox := [.elapse, .rst] } = .next t := ⟨_, rfl⟩
theorem witness_OnlyAForegroundApplyCanFault :
    let s := { at_ 2000 .cw .stopped 0x96 .foreground with inbox := [.issue .foreground 0x388] }
    s.Inv ∧ step s = .fault .shootThrough :=
  ⟨⟨by decide, by decide, by decide, by decide, by decide, by decide, by decide, by decide⟩, rfl⟩

end Sys2Proof.Tests
end

namespace Sys2Proof.Machine

/-! ### The table index (00_scope R17, R18) -/

/-- The conversion of `tableIndex` to a natural number loses nothing: the residue is never negative. -/
theorem natCast_tableIndex (n : Int) {l : Nat} (hl : 0 < l) : (tableIndex n l : Int) = n % l :=
  Int.toNat_of_nonneg (Int.emod_nonneg n (by omega))

theorem tableIndex_lt_of_pos (n : Int) {l : Nat} (hl : 0 < l) : tableIndex n l < l := by
  have hlt : n % (l : Int) < l := Int.emod_lt_of_pos n (by omega)
  rw [← natCast_tableIndex n hl] at hlt
  exact_mod_cast hlt

theorem dvd_sub_tableIndex (n : Int) {l : Nat} (hl : 0 < l) : (l : Int) ∣ n - (tableIndex n l : Int) := by
  rw [natCast_tableIndex n hl]
  exact Int.dvd_self_sub_emod

/-- Two residues below `l` of one integer differ by a multiple of `l`, so they are equal. -/
theorem eq_tableIndex_of_dvd_sub {n : Int} {l r : Nat} (hr : r < l) (hdvd : (l : Int) ∣ n - (r : Int)) :
    r = tableIndex n l := by
  have hmod : n % (l : Int) = (r : Int) % l := Int.emod_eq_emod_iff_emod_sub_eq_zero.mpr (Int.emod_eq_zero_of_dvd hdvd)
  have hrl : (r : Int) % l = r := Int.emod_eq_of_lt (by omega) (by omega)
  rw [tableIndex, hmod, hrl, Int.toNat_natCast]

theorem tableIndex_add_length (n : Int) (l : Nat) : tableIndex (n + (l : Int)) l = tableIndex n l := by
  rw [tableIndex, tableIndex, Int.add_emod_right]

/-- The source's formula under a truncating remainder: `n tmod l + l` is positive, and its residue is that of `n`. -/
theorem tmod_formula_eq_tableIndex (n : Int) {l : Nat} (hl : 0 < l) :
    Int.tmod (Int.tmod n l + l) l = (tableIndex n l : Int) := by
  have hnonneg : 0 ≤ Int.tmod n l + l := by
    have hlow : -(l : Int) < Int.tmod n l := Int.lt_tmod_of_pos n (by omega)
    omega
  calc Int.tmod (Int.tmod n l + l) l
      = (Int.tmod n l + l) % l := Int.tmod_eq_emod_of_nonneg hnonneg
    _ = Int.tmod n l % l := Int.add_emod_right _ _
    _ = (Int.tmod n l + l * Int.tdiv n l) % l := (Int.add_mul_emod_self_left _ _ _).symm
    _ = n % l := by rw [Int.tmod_add_mul_tdiv]
    _ = (tableIndex n l : Int) := (natCast_tableIndex n hl).symm

/-- The source's formula under a flooring remainder, which for a positive length is already the residue. -/
theorem fmod_formula_eq_tableIndex (n : Int) {l : Nat} (hl : 0 < l) :
    Int.fmod (Int.fmod n l + l) l = (tableIndex n l : Int) := by
  have hl0 : (0 : Int) ≤ l := by omega
  rw [Int.fmod_eq_emod_of_nonneg _ hl0, Int.fmod_eq_emod_of_nonneg _ hl0, Int.add_emod_right, Int.emod_emod,
    natCast_tableIndex n hl]

/-- Settles O7: the index is `n % l`, whose range and uniqueness are those of the Euclidean remainder. -/
theorem tableIndexIsTheNonNegativeResidue : Obligations.TableIndexIsTheNonNegativeResidue := fun n l hl =>
  ⟨tableIndex_lt_of_pos n hl, dvd_sub_tableIndex n hl, fun _ hr hdvd => eq_tableIndex_of_dvd_sub hr hdvd,
    (tableIndex_add_length n l).symm, (tmod_formula_eq_tableIndex n hl).symm, (fmod_formula_eq_tableIndex n hl).symm⟩

/-- The low `k` bits of the two's-complement `STEP` are its residue modulo `2 ^ k`, since `2 ^ k` divides `2 ^ W`. -/
theorem State.tableIndex_two_pow_eq_lowBits (s : State) {k : Nat} (hk : k ≤ s.cfg.stepWidth) :
    tableIndex s.step (2 ^ k) = (s.stepOut.extractLsb' 0 k).toNat := by
  have hdvd : ((2 ^ k : Nat) : Int) ∣ ((2 ^ s.cfg.stepWidth : Nat) : Int) := by
    exact_mod_cast Nat.pow_dvd_pow 2 hk
  have hreg : 0 ≤ s.step % ((2 ^ s.cfg.stepWidth : Nat) : Int) := Int.emod_nonneg _ (by positivity)
  calc tableIndex s.step (2 ^ k)
      = (s.step % ((2 ^ s.cfg.stepWidth : Nat) : Int) % ((2 ^ k : Nat) : Int)).toNat := by
        rw [tableIndex, Int.emod_emod_of_dvd _ hdvd]
    _ = (s.step % ((2 ^ s.cfg.stepWidth : Nat) : Int)).toNat % 2 ^ k := Int.toNat_emod hreg (Int.natCast_nonneg _)
    _ = (s.stepOut.extractLsb' 0 k).toNat := by
        rw [BitVec.extractLsb'_toNat, Nat.shiftRight_zero, State.stepOut, BitVec.toNat_ofInt]

/-- Settles O8: 4 and 8 are the second and the third power of 2. -/
theorem tableIndexIsTheLowBitsOfStep : Obligations.TableIndexIsTheLowBitsOfStep := fun s hw =>
  ⟨s.tableIndex_two_pow_eq_lowBits (k := 2) (by omega), s.tableIndex_two_pow_eq_lowBits (k := 3) hw⟩

/-! ### Where a refusal comes from (60_exceptions R197) -/

theorem andThen_eq_refused (o : Out) (k : State → Out) (r : Refusal) :
    andThen o k = .refused r ↔ o = .refused r ∨ ∃ s, o = .next s ∧ k s = .refused r := by
  cases o <;> simp

/-- The issue check refuses with `reservedEncoding`; where it passes, the operation answers. -/
theorem State.issuedBy_eq_refused (s : State) (cs : List Ctx) (o : Out) (r : Refusal) :
    s.issuedBy cs o = .refused r ↔ s.ctx ∈ cs ∧ o = .refused r ∨ s.ctx ∉ cs ∧ r = .reservedEncoding := by
  by_cases h : s.ctx ∈ cs
  · simp [State.issuedBy_mem h, h]
  · simp [State.issuedBy_not_mem h, h, eq_comm]

theorem State.applyPattern_ne_refused (s : State) (p : Pattern) (r : Refusal) : s.applyPattern p ≠ .refused r := by
  unfold applyPattern
  split <;> simp

/-- The drive check refuses a foreground drive while `Running` and an `ADV.m`'s drive while `Stopped`. -/
theorem State.driveAllowed_eq_refused {s : State} {o : Out} {r : Refusal} (h : s.driveAllowed o = .refused r) :
    r = .foregroundDriveWhileRunning ∨ r = .reservedEncoding ∨ o = .refused r := by
  unfold driveAllowed at h
  split at h
  · split at h
    · exact .inl (by simpa using h.symm)
    · exact .inr (.inr h)
  · split at h
    · exact .inr (.inl (by simpa using h.symm))
    · exact .inr (.inr h)

theorem State.driveAllowed_applyPattern_ne_badConfig (s : State) (p : Pattern) :
    s.driveAllowed (s.applyPattern p) ≠ .refused .badConfig := fun h => by
  simpa [s.applyPattern_ne_refused] using State.driveAllowed_eq_refused h

theorem State.advance_ne_refused (s : State) (m : DriveMode) (r : Refusal) : s.advance m ≠ .refused r := by
  simp [advance, andThen_eq_refused, s.applyPattern_ne_refused]

/-- The issue check raises no `badConfig` of its own. -/
theorem State.issuedBy_ne_badConfig (s : State) {o : Out} (h : o ≠ .refused .badConfig) (cs : List Ctx) :
    s.issuedBy cs o ≠ .refused .badConfig := by
  simp [s.issuedBy_eq_refused, h]

theorem State.advanceAs_ne_badConfig (s : State) (m : DriveMode) : s.advanceAs m ≠ .refused .badConfig := by
  apply s.issuedBy_ne_badConfig
  split
  · exact s.advance_ne_refused m _
  · simp

theorem State.actAs_ne_badConfig (s : State) (a : Action) : s.actAs a ≠ .refused .badConfig := by
  apply s.issuedBy_ne_badConfig
  split <;> simp

theorem execTick_ne_badConfig (s : State) : execTick s ≠ .refused .badConfig := by
  apply s.issuedBy_ne_badConfig
  split
  · simp
  · simp [andThen_eq_refused, s.applyPattern_ne_refused]

theorem execPinw_ne_badConfig (b : Nat) (v : Bool) (s : State) : execPinw b v s ≠ .refused .badConfig := by
  apply s.issuedBy_ne_badConfig
  split <;> simp

theorem execActHome_ne_badConfig (s : State) : execActHome s ≠ .refused .badConfig := by
  unfold execActHome
  split
  · exact s.actAs_ne_badConfig _
  · simp

/-- No operation answers `badConfig`: it is raised by the step alone. -/
theorem exec_ne_badConfig (i : Instr) (s : State) : exec i s ≠ .refused .badConfig := by
  cases i with
  | tick => exact execTick_ne_badConfig s
  | advWave | advFull | advHalf => exact s.advanceAs_ne_badConfig _
  | apply | brake => exact s.issuedBy_ne_badConfig (s.driveAllowed_applyPattern_ne_badConfig _) _
  | offw | onw | dt | stop | resume | classify | poll | rdstep | rdlatch => exact s.issuedBy_ne_badConfig (by simp) _
  | actNone | actStop | actRev => exact s.actAs_ne_badConfig _
  | actHome => exact execActHome_ne_badConfig s
  | pinw b v => exact execPinw_ne_badConfig b v s

theorem step_of_configOk_false {s : State} (h : configOk s.cfg = false) : step s = .refused .badConfig := by
  simp [step, h]

theorem step_ne_badConfig {s : State} (h : configOk s.cfg = true) : step s ≠ .refused .badConfig := by
  rw [step, if_pos h]
  split
  · simp
  · simp
  · simp
  · split
    · simp
    · exact exec_ne_badConfig _ _

/-- Settles O18: the step refuses an ill-formed configuration before anything else, and no operation answers so. -/
theorem illFormedConfigurationIsRefused : Obligations.IllFormedConfigurationIsRefused :=
  ⟨configOk_iff, fun _ => ⟨fun h => Bool.eq_false_iff.mpr fun hok => step_ne_badConfig hok h, step_of_configOk_false⟩⟩

end Sys2Proof.Machine

namespace Sys2Proof.Machine

/-! ### What the compound updates leave unchanged -/

section
variable (s : State)

@[simp] theorem State.writePorts_rot (write : Pattern → WriteRec) (mask : Pattern) :
    (s.writePorts write mask).rot = s.rot := by rw [writePorts, performAll_eq]
@[simp] theorem State.writePorts_run (write : Pattern → WriteRec) (mask : Pattern) :
    (s.writePorts write mask).run = s.run := by rw [writePorts, performAll_eq]

@[simp] theorem State.ticked_cfg : s.ticked.cfg = s.cfg := by simp [ticked]
@[simp] theorem State.ticked_rot : s.ticked.rot = s.rot := by simp [ticked]
@[simp] theorem State.ticked_run : s.ticked.run = s.run := by simp [ticked]
@[simp] theorem State.ticked_latch : s.ticked.latch = selected s.cfg s.cfg.mode s.step := by simp [ticked]
@[simp] theorem State.ticked_inbox : s.ticked.inbox = s.inbox := by simp [ticked]

@[simp] theorem State.stopCheck_milestone : s.stopCheck.milestone = s.milestone :=
  State.milestone_congr s.stopCheck_cfg s.stopCheck_step
@[simp] theorem State.leaveInterrupt_milestone : s.leaveInterrupt.milestone = s.milestone := rfl

@[simp] theorem State.runAction_cfg (a : Action) : (s.runAction a).cfg = s.cfg := by rw [runAction_eq]
@[simp] theorem State.runAction_step (a : Action) : (s.runAction a).step = s.step := by rw [runAction_eq]
@[simp] theorem State.runAction_rot (a : Action) :
    (s.runAction a).rot = if a = .reverseAndReport then opposite s.rot else s.rot := by rw [runAction_eq]
@[simp] theorem State.runAction_run (a : Action) : (s.runAction a).run = if a = .none then s.run else .running := by
  rw [runAction_eq]
@[simp] theorem State.runAction_latch (a : Action) : (s.runAction a).latch = s.latch := by rw [runAction_eq]
@[simp] theorem State.runAction_inbox (a : Action) : (s.runAction a).inbox = s.inbox := by rw [runAction_eq]
end

/-! ### What an operation can do, as one answer (44_operation_classes R172) -/

/-- `ADV.m` answers exactly where the entry is legal (R121). -/
theorem State.advance_eq_next (s : State) (m : DriveMode) (t : State) :
    s.advance m = .next t ↔ legal (selected s.cfg m s.step) = true ∧
      t = (s.drive (selected s.cfg m s.step)).answer (.adv (s.step + sign s.rot) (selected s.cfg m s.step)) := by
  simp [advance, andThen_eq_next, applyPattern_eq_next, eq_comm (a := t)]

/-- A `TICK` that answers: ignored while `Stopped`, else the driven and stored state after its stop check (R140, R143). -/
theorem execTick_eq_next (s t : State) :
    execTick s = .next t ↔ s.ctx = .timer ∧
      (s.run = .stopped ∧ t = s.leaveInterrupt ∨
        s.run = .running ∧ legal (selected s.cfg s.cfg.mode s.step) = true ∧ t = s.ticked.stopCheck.leaveInterrupt) := by
  rw [execTick, State.issuedBy_eq_next, List.mem_singleton]
  cases s.run <;> simp [andThen_eq_next, State.applyPattern_eq_next, State.ticked, eq_comm (a := t)]

/-- An `ACT.a` that answers runs its action; a reporting one only while `Stopped` (R187, R224). -/
theorem State.actAs_eq_next (s : State) (a : Action) (t : State) :
    s.actAs a = .next t ↔ s.ctx = .inside .poll ∧ (a = .none ∨ s.run = .stopped) ∧ t = s.runAction a := by
  rw [actAs, issuedBy_eq_next, List.mem_singleton]
  cases s.run <;> by_cases ha : a = .none <;> simp [ha, eq_comm]

/-- A `POLL` that answers: nothing while `Running`, else the action of the milestone (R163). -/
theorem execPoll_eq_next (s t : State) :
    execPoll s = .next t ↔ s.ctx = .foreground ∧
      (s.run = .running ∧ t = s ∨ s.run = .stopped ∧ t = s.runAction s.milestone) := by
  rw [execPoll, State.issuedBy_eq_next, List.mem_singleton]
  cases s.run <;> simp [eq_comm]

/-- A drive that answers is that of a legal pattern, where its context may drive (R60 (c), R105). -/
theorem State.eq_drive_of_driveAllowed {s t : State} {p : Pattern} (h : s.driveAllowed (s.applyPattern p) = .next t) :
    legal p = true ∧ t = s.drive p ∧ (s.ctx = .foreground → s.run = .stopped) := by
  obtain ⟨happly, hrunning, -⟩ := (s.driveAllowed_eq_next _ t).mp h
  obtain ⟨hlegal, ht⟩ := (s.applyPattern_eq_next p t).mp happly
  refine ⟨hlegal, ht.symm, fun hctx => ?_⟩
  cases hrun : s.run with
  | stopped => rfl
  | running => exact absurd hctx (hrunning hrun).1

/-- `ACT.HOME` that answers is the home action of a device built with the home variant (R167). -/
theorem execActHome_eq_next (s t : State) :
    execActHome s = .next t ↔ s.cfg.homeVariant = true ∧ s.actAs .homeAndReport = .next t := by
  unfold execActHome
  split <;> simp [*]

/-! ### Who writes `ROT` and `RUN` (10_state R21, R25) -/

/-- A reporting `ACT.a` that answers ran its action, from `Stopped`. -/
theorem State.eq_runAction_of_actAs {s t : State} {a : Action} (ha : a ≠ .none) (h : s.actAs a = .next t) :
    s.run = .stopped ∧ t = s.runAction a := by
  obtain ⟨-, hnone | hrun, ht⟩ := (s.actAs_eq_next a t).mp h
  · exact absurd hnone ha
  · exact ⟨hrun, ht⟩

/-- What an operation can do to `ROT` and `RUN`: nothing; clear `RUN`; set it by `RESUME`; or run a reporting action. -/
theorem exec_motion_cases {s t : State} {i : Instr} (h : exec i s = .next t) :
    (t.rot = s.rot ∧ t.run = s.run) ∨
    (t.rot = s.rot ∧ t.run = .stopped ∧ (i = .stop ∨ i = .tick ∧ t.milestone ≠ .none)) ∨
    (t.rot = s.rot ∧ t.run = .running ∧ i = .resume) ∨
    (s.run = .stopped ∧ ∃ a, a ≠ .none ∧ t = s.runAction a ∧ (i = Instr.ofAction a ∨ i = .poll ∧ s.milestone = a)) := by
  cases i with
  | tick =>
    obtain ⟨-, ⟨-, rfl⟩ | ⟨-, -, rfl⟩⟩ := (execTick_eq_next s t).mp h
    · exact .inl ⟨rfl, rfl⟩
    · by_cases hm : s.ticked.milestone = .none
      · exact .inl (by simp [hm])
      · exact .inr (.inl (by simp [hm]))
  | advWave | advFull | advHalf =>
    obtain ⟨-, -, -, hadv⟩ := (s.advanceAs_eq_next _ t).mp h
    obtain ⟨-, rfl⟩ := (s.advance_eq_next _ t).mp hadv
    exact .inl (by simp)
  | apply | brake =>
    obtain ⟨-, hdrive⟩ := (s.issuedBy_eq_next _ _ t).mp h
    obtain ⟨-, rfl, -⟩ := State.eq_drive_of_driveAllowed hdrive
    exact .inl (by simp)
  | offw | onw | dt | classify | rdstep | rdlatch =>
    obtain ⟨-, ⟨⟩⟩ := (s.issuedBy_eq_next _ _ t).mp h
    exact .inl (by simp)
  | pinw b v =>
    obtain ⟨-, hpin⟩ := (s.issuedBy_eq_next _ _ t).mp h
    split at hpin
    · cases hpin
      exact .inl (by simp)
    · cases hpin
  | stop =>
    obtain ⟨-, ⟨⟩⟩ := (s.issuedBy_eq_next _ _ t).mp h
    exact .inr (.inl ⟨rfl, rfl, .inl rfl⟩)
  | resume =>
    obtain ⟨-, ⟨⟩⟩ := (s.issuedBy_eq_next _ _ t).mp h
    exact .inr (.inr (.inl ⟨rfl, rfl, rfl⟩))
  | poll =>
    obtain ⟨-, ⟨-, rfl⟩ | ⟨hstopped, rfl⟩⟩ := (execPoll_eq_next s t).mp h
    · exact .inl ⟨rfl, rfl⟩
    · by_cases hm : s.milestone = .none
      · exact .inl (by simp [hm])
      · exact .inr (.inr (.inr ⟨hstopped, s.milestone, hm, rfl, .inr ⟨rfl, rfl⟩⟩))
  | actNone =>
    obtain ⟨-, -, rfl⟩ := (s.actAs_eq_next _ t).mp h
    exact .inl ⟨rfl, rfl⟩
  | actStop | actRev =>
    obtain ⟨hstopped, ht⟩ := State.eq_runAction_of_actAs (by decide) h
    exact .inr (.inr (.inr ⟨hstopped, _, by decide, ht, .inl rfl⟩))
  | actHome =>
    obtain ⟨hstopped, ht⟩ := State.eq_runAction_of_actAs (by decide) ((execActHome_eq_next s t).mp h).2
    exact .inr (.inr (.inr ⟨hstopped, _, by decide, ht, .inl rfl⟩))

/-- Settles O51: of the four things an operation can do to `ROT`, only a reporting action turns it, and of these only
`ReverseAndReport`. -/
theorem onlyAReversalTurnsTheRotation : Obligations.OnlyAReversalTurnsTheRotation := by
  intro s t i h hrot
  obtain ⟨hsame, -⟩ | ⟨hsame, -⟩ | ⟨hsame, -⟩ | ⟨hstopped, a, -, rfl, hi⟩ := exec_motion_cases h
  · exact absurd hsame hrot
  · exact absurd hsame hrot
  · exact absurd hsame hrot
  · have ha : a = .reverseAndReport := by
      by_contra hne
      exact hrot (by simp [hne])
    subst ha
    exact ⟨hstopped, by simp, hi⟩

/-- Settles O52: of the four things an operation can do to `RUN`, one clears it, and two set it. -/
theorem onlyStopAndResumeChangeRun : Obligations.OnlyStopAndResumeChangeRun := by
  intro s t i h hrun
  obtain ⟨-, hsame⟩ | ⟨-, hstopped, hi⟩ | ⟨-, hrunning, hi⟩ | ⟨-, a, ha, rfl, hi⟩ := exec_motion_cases h
  · exact absurd hsame hrun
  · exact .inl ⟨hstopped, hi⟩
  · exact .inr ⟨hrunning, .inl hi⟩
  · refine .inr ⟨by simp [ha], .inr ?_⟩
    obtain hi | ⟨hi, hm⟩ := hi
    · cases a with
      | none => exact absurd rfl ha
      | stopAndReport => exact .inl hi
      | reverseAndReport => exact .inr (.inl hi)
      | homeAndReport => exact .inr (.inr (.inl hi))
    · exact .inr (.inr (.inr ⟨hi, hm ▸ ha⟩))

/-! ### What each agent's operation does, and what a step does (60_exceptions R181, R187) -/

/-- The timer issues nothing but `TICK` (R187). -/
theorem exec_timer_cases {s t : State} {i : Instr} (hctx : s.ctx = .timer) (h : exec i s = .next t) :
    i = .tick ∧ (s.run = .stopped ∧ t = s.leaveInterrupt ∨ s.run = .running ∧ t = s.ticked.stopCheck.leaveInterrupt) := by
  cases i with
  | tick =>
    obtain ⟨-, hstopped | ⟨hrunning, -, ht⟩⟩ := (execTick_eq_next s t).mp h
    · exact ⟨rfl, .inl hstopped⟩
    · exact ⟨rfl, .inr ⟨hrunning, ht⟩⟩
  | advWave | advFull | advHalf => simp [((s.advanceAs_eq_next _ t).mp h).1] at hctx
  | actNone | actStop | actRev => simp [((s.actAs_eq_next _ t).mp h).1] at hctx
  | actHome => simp [((s.actAs_eq_next _ t).mp ((execActHome_eq_next s t).mp h).2).1] at hctx
  | apply | brake | offw | onw | dt | pinw | stop | resume | classify | poll | rdstep | rdlatch =>
    simpa [hctx] using ((s.issuedBy_eq_next _ _ t).mp h).1

/-- The foreground drives the coils while `Stopped`, reads a register, or polls (R187). -/
theorem exec_foreground_cases {s t : State} {i : Instr} (hctx : s.ctx = .foreground) (h : exec i s = .next t) :
    (s.run = .stopped ∧ ∃ p, legal p = true ∧ t = s.drive p ∧ (i = .apply p ∨ i = .brake ∧ p = shortBrake)) ∨
    (∃ r, t = s.answer r ∧ (i = .rdstep ∧ r = .step s.step ∨ i = .rdlatch ∧ r = .latch s.latch)) ∨
    (i = .poll ∧ (s.run = .running ∧ t = s ∨ s.run = .stopped ∧ t = s.runAction s.milestone)) := by
  cases i with
  | apply p =>
    obtain ⟨hlegal, ht, hstopped⟩ := State.eq_drive_of_driveAllowed ((s.issuedBy_eq_next _ _ t).mp h).2
    exact .inl ⟨hstopped hctx, p, hlegal, ht, .inl rfl⟩
  | brake =>
    obtain ⟨hlegal, ht, hstopped⟩ := State.eq_drive_of_driveAllowed ((s.issuedBy_eq_next _ _ t).mp h).2
    exact .inl ⟨hstopped hctx, shortBrake, hlegal, ht, .inr ⟨rfl, rfl⟩⟩
  | rdstep =>
    obtain ⟨-, ⟨⟩⟩ := (s.issuedBy_eq_next _ _ t).mp h
    exact .inr (.inl ⟨_, rfl, .inl ⟨rfl, rfl⟩⟩)
  | rdlatch =>
    obtain ⟨-, ⟨⟩⟩ := (s.issuedBy_eq_next _ _ t).mp h
    exact .inr (.inl ⟨_, rfl, .inr ⟨rfl, rfl⟩⟩)
  | poll => exact .inr (.inr ⟨rfl, ((execPoll_eq_next s t).mp h).2⟩)
  | tick => simp [((execTick_eq_next s t).mp h).1] at hctx
  | advWave | advFull | advHalf => simp [((s.advanceAs_eq_next _ t).mp h).1] at hctx
  | actNone | actStop | actRev => simp [((s.actAs_eq_next _ t).mp h).1] at hctx
  | actHome => simp [((s.actAs_eq_next _ t).mp ((execActHome_eq_next s t).mp h).2).1] at hctx
  | offw | onw | dt | pinw | stop | resume | classify =>
    simpa [hctx] using ((s.issuedBy_eq_next _ _ t).mp h).1

theorem decode_tickWord : decode tickWord = some .tick := by decide

/-- A step that answers idles, takes the pending period as a `TICK`, or takes the first event of the schedule. -/
theorem step_cases {s t : State} (h : step s = .next t) :
    (s.interruptDue = true ∧ exec .tick s.enterInterrupt = .next t) ∨
    (s.interruptDue = false ∧
      ((s.inbox = [] ∧ t = s) ∨
       (∃ rest, s.inbox = .elapse :: rest ∧ t = State.elapse { s with inbox := rest }) ∨
       (∃ rest, s.inbox = .rst :: rest ∧ t = State.powerCycle { s with inbox := rest }) ∨
       (∃ c w rest i, s.inbox = .issue c w :: rest ∧ decode w = some i ∧
          exec i (State.issueAs { s with inbox := rest } c) = .next t))) := by
  have hok : configOk s.cfg = true := by
    by_contra hbad
    simp [step_of_configOk_false (Bool.eq_false_iff.mpr hbad)] at h
  rw [step, if_pos hok] at h
  cases hdue : s.interruptDue with
  | true =>
    simp only [State.take, hdue, if_true, decode_tickWord] at h
    exact .inl ⟨rfl, h⟩
  | false =>
    simp only [State.take, hdue, Bool.false_eq_true, if_false, State.takeEvent] at h
    refine .inr ⟨rfl, ?_⟩
    match hinbox : s.inbox with
    | [] =>
      simp only [hinbox, Host.Outcome.next.injEq] at h
      exact .inl ⟨rfl, h.symm⟩
    | .elapse :: rest =>
      simp only [hinbox, Host.Outcome.next.injEq] at h
      exact .inr (.inl ⟨rest, rfl, h.symm⟩)
    | .rst :: rest =>
      simp only [hinbox, Host.Outcome.next.injEq] at h
      exact .inr (.inr (.inl ⟨rest, rfl, h.symm⟩))
    | .issue c w :: rest =>
      simp only [hinbox] at h
      cases hdecode : decode w with
      | none => simp [hdecode] at h
      | some i =>
        simp only [hdecode] at h
        exact .inr (.inr (.inr ⟨c, w, rest, i, rfl, hdecode, h⟩))

/-! ### The limit is a milestone (43_milestone R160) -/

theorem classify_limit {c : Config} (hunit : 1 ≤ c.unit) : classify c (10 * (c.unit : Int)) = .reverseAndReport := by
  rw [classify, if_neg (by omega), if_neg (by omega), if_pos rfl]

/-- Within `10 * U` of home `STEP` is not the register's most negative value, so its magnitude is the absolute value. -/
theorem State.magnitude_eq_abs_of_lower {s : State} (hcfg : configOk s.cfg = true) (hlower : -s.limit ≤ s.step) :
    s.magnitude = |s.step| := by
  have hfits := (configOk_unit hcfg).2
  refine s.magnitude_eq fun hmin => ?_
  rw [limit] at hlower
  omega

theorem State.milestone_at_limit {s : State} (hcfg : configOk s.cfg = true)
    (hlimit : s.step = s.limit ∨ s.step = -s.limit) : s.milestone = .reverseAndReport := by
  have hunit := (configOk_unit hcfg).1
  have hnonneg : 0 ≤ s.limit := by unfold limit; omega
  have habs : |s.step| = s.limit := by
    obtain h | h := hlimit
    · rw [h, abs_of_nonneg hnonneg]
    · rw [h, abs_neg, abs_of_nonneg hnonneg]
  rw [milestone, State.magnitude_eq_abs_of_lower hcfg (by omega), habs]
  exact classify_limit hunit

/-! ### The invariant (10_state R36, R38, 42_motion R150) -/

/-- The invariant reads the configuration, `STEP`, `ROT` and `RUN`, and asks a legal latch and agents' events. -/
theorem State.Inv.of_same_motion {s t : State} (hs : s.Inv) (hcfg : t.cfg = s.cfg) (hstep : t.step = s.step)
    (hrot : t.rot = s.rot) (hrun : t.run = s.run) (hlatch : legal t.latch = true)
    (hinbox : t.inbox.all Event.fromAgent = true) : t.Inv := by
  have hlimit : t.limit = s.limit := by rw [limit, limit, hcfg]
  have hmilestone : t.milestone = s.milestone := State.milestone_congr hcfg hstep
  exact {
    config := by rw [hcfg, hs.config]
    latchLegal := hlatch
    lower := by rw [hlimit, hstep]; exact hs.lower
    upper := by rw [hlimit, hstep]; exact hs.upper
    inward := by rw [hlimit, hstep, hrot, hrun]; exact hs.inward
    outward := by rw [hlimit, hstep, hrot, hrun]; exact hs.outward
    stoppedAtMilestone := by rw [hrun, hmilestone]; exact hs.stoppedAtMilestone
    agentsOnly := hinbox }

theorem State.limit_pos {s : State} (hcfg : configOk s.cfg = true) : 0 < s.limit := by
  have hunit := (configOk_unit hcfg).1
  unfold limit
  omega

/-- A well-formed device powers on in the invariant: home is off the limits, and all-off is legal (R33). -/
theorem State.inv_powerOn {c : Config} (hcfg : configOk c = true) : (State.powerOn c).Inv := by
  have hlimit : 0 < (State.powerOn c).limit := State.limit_pos hcfg
  have hoff : ¬((0 : Int) = (State.powerOn c).limit ∨ (0 : Int) = -(State.powerOn c).limit) := by omega
  exact {
    config := hcfg
    latchLegal := (by decide : legal 0x00 = true)
    lower := show -(State.powerOn c).limit ≤ 0 by omega
    upper := show 0 ≤ (State.powerOn c).limit by omega
    inward := fun hat => absurd hat hoff
    outward := fun hat => absurd hat hoff
    stoppedAtMilestone := nofun
    agentsOnly := rfl }

theorem State.Inv.powerCycle {s : State} (hs : s.Inv) : s.powerCycle.Inv :=
  have hon := State.inv_powerOn hs.config
  hon.of_same_motion rfl rfl rfl rfl hon.latchLegal hs.agentsOnly

/-- Within the limits, pointing inward at them, a running block steps to a position within them, and points outward
there if it has arrived at one. -/
theorem State.Inv.step_add_sign {s : State} (hs : s.Inv) (hrun : s.run = .running) :
    -s.limit ≤ s.step + sign s.rot ∧ s.step + sign s.rot ≤ s.limit ∧
      (s.step + sign s.rot = s.limit ∨ s.step + sign s.rot = -s.limit → 0 < sign s.rot * (s.step + sign s.rot)) := by
  have hunit := (configOk_unit hs.config).1
  have hlimit : 10 ≤ s.limit := by unfold limit; omega
  have hlower := hs.lower
  have hupper := hs.upper
  have hinward := fun hat => hs.inward hat hrun
  cases hrot : s.rot <;> simp only [hrot, sign] at hinward ⊢ <;> omega

/-- From a state of the invariant the incremented `STEP` fits the register (R15), so it is stored exactly. -/
theorem State.Inv.ticked_step {s : State} (hs : s.Inv) (hrun : s.run = .running) :
    s.ticked.step = s.step + sign s.rot := by
  obtain ⟨hlower, hupper, -⟩ := hs.step_add_sign hrun
  have hfits := (configOk_unit hs.config).2
  rw [limit] at hlower hupper
  rw [ticked, storeStep_inRegister]
  rw [drive_cfg, inRegister_iff]
  constructor <;> omega

/-- A running block is stopped by the stop check exactly at a milestone (R140). -/
theorem State.stopCheck_run_eq_stopped_iff {s : State} (hrun : s.run = .running) :
    s.stopCheck.run = .stopped ↔ s.milestone ≠ .none := by
  simp [hrun]

/-- A running `TICK` moves within the limits; its stop check stops the block where it arrives at a milestone, and so at
a limit, where the rotation still points outward. -/
theorem State.Inv.ticked_stopCheck {s : State} (hs : s.Inv) (hrun : s.run = .running) : s.ticked.stopCheck.Inv := by
  obtain ⟨hlower, hupper, houtward⟩ := hs.step_add_sign hrun
  have hstep : s.ticked.stopCheck.step = s.step + sign s.rot := by rw [stopCheck_step, hs.ticked_step hrun]
  have hrot : s.ticked.stopCheck.rot = s.rot := by rw [stopCheck_rot, ticked_rot]
  have hcfg : s.ticked.stopCheck.cfg = s.cfg := by rw [stopCheck_cfg, ticked_cfg]
  have hlimit : s.ticked.stopCheck.limit = s.limit := by rw [limit, limit, hcfg]
  have hconfig : configOk s.ticked.stopCheck.cfg = true := by rw [hcfg, hs.config]
  have hstopped : s.ticked.stopCheck.run = .stopped ↔ s.ticked.stopCheck.milestone ≠ .none := by
    rw [stopCheck_milestone]
    exact State.stopCheck_run_eq_stopped_iff (by rw [ticked_run, hrun])
  exact {
    config := hconfig
    latchLegal := by simpa using selected_legal hs.config s.step
    lower := by rwa [hstep, hlimit]
    upper := by rwa [hstep, hlimit]
    inward := fun hat hrunning => by
      have hmilestone : s.ticked.stopCheck.milestone ≠ .none := by rw [State.milestone_at_limit hconfig hat]; decide
      exact nomatch (hstopped.mpr hmilestone).symm.trans hrunning
    outward := fun hat _ => by
      rw [hstep, hlimit] at hat
      rw [hstep, hrot]
      exact houtward hat
    stoppedAtMilestone := hstopped.mp
    agentsOnly := by simpa using hs.agentsOnly }

@[simp] theorem sign_opposite (r : Rotation) : sign (opposite r) = -sign r := by cases r <;> rfl

/-- The action of a milestone sets the block running, at a limit pointing inward: the action there is the reversal. -/
theorem State.Inv.runAction_milestone {s : State} (hs : s.Inv) (hrun : s.run = .stopped) :
    (s.runAction s.milestone).Inv := by
  have hmilestone : s.milestone ≠ .none := hs.stoppedAtMilestone hrun
  have hnotStopped : (s.runAction s.milestone).run ≠ .stopped := by rw [runAction_run, if_neg hmilestone]; decide
  have hlimit : (s.runAction s.milestone).limit = s.limit := by rw [limit, limit, runAction_cfg]
  exact {
    config := by rw [runAction_cfg, hs.config]
    latchLegal := by rw [runAction_latch, hs.latchLegal]
    lower := by rw [hlimit, runAction_step]; exact hs.lower
    upper := by rw [hlimit, runAction_step]; exact hs.upper
    inward := fun hat _ => by
      rw [hlimit, runAction_step] at hat
      have houtward := hs.outward hat hrun
      rw [runAction_rot, if_pos (State.milestone_at_limit hs.config hat), runAction_step, sign_opposite]
      linarith
    outward := fun _ hstopped => absurd hstopped hnotStopped
    stoppedAtMilestone := fun hstopped => absurd hstopped hnotStopped
    agentsOnly := by rw [runAction_inbox, hs.agentsOnly] }

/-- An operation that an agent issues keeps the invariant. -/
theorem State.Inv.exec_agent {s t : State} {i : Instr} (hs : s.Inv) (hctx : s.ctx = .timer ∨ s.ctx = .foreground)
    (h : exec i s = .next t) : t.Inv := by
  obtain hctx | hctx := hctx
  · obtain ⟨-, ⟨-, rfl⟩ | ⟨hrun, rfl⟩⟩ := exec_timer_cases hctx h
    · exact hs.of_same_motion rfl rfl rfl rfl hs.latchLegal hs.agentsOnly
    · have ht := hs.ticked_stopCheck hrun
      exact ht.of_same_motion rfl rfl rfl rfl ht.latchLegal ht.agentsOnly
  · obtain ⟨-, p, hlegal, rfl, -⟩ | ⟨r, rfl, -⟩ | ⟨-, ⟨-, rfl⟩ | ⟨hrun, rfl⟩⟩ := exec_foreground_cases hctx h
    · exact hs.of_same_motion (s.drive_cfg p) (s.drive_step p) (s.drive_rot p) (s.drive_run p) (by simpa using hlegal)
        (by simpa using hs.agentsOnly)
    · exact hs.of_same_motion rfl rfl rfl rfl hs.latchLegal hs.agentsOnly
    · exact hs
    · exact hs.runAction_milestone hrun

/-- Taking an event off the schedule leaves a state of the invariant. -/
theorem State.Inv.tail {s : State} {e : Event} {rest : List Event} (hs : s.Inv) (hinbox : s.inbox = e :: rest) :
    State.Inv { s with inbox := rest } ∧ e.fromAgent = true := by
  have hall := hs.agentsOnly
  rw [hinbox, List.all_cons, Bool.and_eq_true] at hall
  exact ⟨hs.of_same_motion rfl rfl rfl rfl hs.latchLegal hall.2, hall.1⟩

theorem Event.issue_fromAgent {c : Ctx} {w : CmdWord} (h : (Event.issue c w).fromAgent = true) :
    c = .timer ∨ c = .foreground := by
  cases c with
  | timer => exact .inl rfl
  | foreground => exact .inr rfl
  | inside parent => exact absurd h Bool.false_ne_true

theorem State.Inv.issueAs {s : State} (hs : s.Inv) (c : Ctx) : (s.issueAs c).Inv :=
  hs.of_same_motion (s.issueAs_cfg c) (s.issueAs_step c) (s.issueAs_rot c) (s.issueAs_run c)
    (by simpa using hs.latchLegal) (by simpa using hs.agentsOnly)

/-- Settles O59: each thing a step can take keeps the invariant, and the agents issue no sub-step. -/
theorem everyStepKeepsTheInvariant : Obligations.EveryStepKeepsTheInvariant := by
  intro s t hs h
  obtain ⟨-, htick⟩ | ⟨-, ⟨-, rfl⟩ | ⟨rest, hinbox, rfl⟩ | ⟨rest, hinbox, rfl⟩ | ⟨c, w, rest, i, hinbox, -, hexec⟩⟩ :=
    step_cases h
  · exact (hs.issueAs .timer).exec_agent (.inl rfl) htick
  · exact hs
  · have hrest := (hs.tail hinbox).1
    rw [State.elapse_eq]
    exact hrest.of_same_motion rfl rfl rfl rfl hrest.latchLegal hrest.agentsOnly
  · exact (hs.tail hinbox).1.powerCycle
  · obtain ⟨hrest, hagent⟩ := hs.tail hinbox
    exact (hrest.issueAs c).exec_agent (by simpa using Event.issue_fromAgent hagent) hexec

/-- Settles O58: reset is the power-on of this hardware's configuration, which is well-formed. -/
theorem invariantHoldsAtReset : Obligations.InvariantHoldsAtReset :=
  State.inv_powerOn (by decide : configOk Config.reference = true)

/-- Settles O13: reset is power-on by definition, so each register holds the value that power-on writes. -/
theorem resetLeavesTheStatedValues : Obligations.ResetLeavesTheStatedValues :=
  ⟨rfl, rfl, rfl, rfl, rfl, rfl, rfl, rfl⟩

end Sys2Proof.Machine

namespace Sys2Proof.Machine

/-! ### Writes port by port (20_memory R54) -/

/-- A port's mask holds exactly the switches whose entry in the list of ports is that port. -/
theorem getLsbD_portMaskFrom (q b : Nat) (ports : List Nat) {i : Nat} (hi : i < 8) :
    (portMaskFrom q b ports).getLsbD i = true ↔ b ≤ i ∧ ports[i - b]? = some q := by
  induction ports generalizing b with
  | nil => simp [portMaskFrom]
  | cons r rest ih =>
    have hfirst : (if r = q then bitMask b else 0).getLsbD i = true ↔ r = q ∧ i = b := by
      split
      · next hr => simp only [getLsbD_bitMask b i hi, decide_eq_true_eq, hr, true_and]
      · next hr => simp [hr]
    rw [portMaskFrom, BitVec.getLsbD_or, Bool.or_eq_true, hfirst, ih]
    obtain hlt | rfl | hgt := Nat.lt_trichotomy i b
    · omega
    · simp
    · have hsub : i - b = i - (b + 1) + 1 := by omega
      rw [hsub, List.getElem?_cons_succ]
      simp [hgt.ne', hgt.le, Nat.succ_le_of_lt hgt]

theorem nodup_distinct (l : List Nat) : (distinct l).Nodup := by
  induction l with
  | nil => exact List.nodup_nil
  | cons x l ih =>
    rw [distinct]
    split
    · exact ih
    · next hx => exact ih.cons (mt (mem_distinct x l).mp hx)

/-- The one group that holds a switch is that of its port, which occurs once among the distinct ports. -/
theorem length_filter_portGroups (m : PortMap) {b : Nat} (hb : b < 8) :
    ((portGroups m).filter (fun g => g.getLsbD b)).length = 1 := by
  have hport : (portList m)[b]? = some (portList m)[b] := List.getElem?_eq_getElem hb
  have hgroup (q : Nat) : (portMaskFrom q 0 (portList m)).getLsbD b = (q == (portList m)[b]) := by
    rw [Bool.eq_iff_iff, getLsbD_portMaskFrom q 0 (portList m) hb, Nat.sub_zero, hport, Option.some_inj, beq_iff_eq]
    exact ⟨fun h => h.2.symm, fun h => ⟨Nat.zero_le b, h.symm⟩⟩
  have hmem : (portList m)[b] ∈ distinct (portList m) := (mem_distinct _ _).mpr (List.getElem_mem hb)
  calc ((portGroups m).filter (fun g => g.getLsbD b)).length
      = (distinct (portList m)).count (portList m)[b] := by
        rw [portGroups, ← List.countP_eq_length_filter, List.countP_map, List.count]
        exact congrArg (List.countP · _) (funext hgroup)
    _ = 1 := List.count_eq_one_of_mem (nodup_distinct _) hmem

theorem offWrites_bulk {c : Config} (hbulk : c.granularity = .bulk) (k : Nat) (p : Pattern) :
    offWrites c k p = portWrites c k .off (~~~p) := by
  rw [offWrites, hbulk]

theorem onWrites_bulk {c : Config} (hbulk : c.granularity = .bulk) (k : Nat) (p : Pattern) :
    onWrites c k p = portWrites c k .on p := by
  rw [onWrites, hbulk]

/-- Inside `APPLY`, `OFFW` answers the writes of its ports (R101). -/
theorem exec_offw {s : State} (hctx : s.ctx = .inside .apply) (mask : Pattern) :
    exec (.offw mask) s = .next (s.writePorts .off mask) :=
  State.issuedBy_mem (List.mem_singleton.mpr hctx) _

/-- Inside `APPLY`, `ONW` answers the writes of its ports (R103). -/
theorem exec_onw {s : State} (hctx : s.ctx = .inside .apply) (mask : Pattern) :
    exec (.onw mask) s = .next (s.writePorts .on mask) :=
  State.issuedBy_mem (List.mem_singleton.mpr hctx) _

theorem State.writePorts_trace (s : State) (write : Pattern → WriteRec) (mask : Pattern) :
    (s.writePorts write mask).trace = s.trace ++ portWrites s.cfg (Config.freeOrder s.free) write mask := by
  rw [writePorts, performAll_eq]

/-- An `APPLY` that answers drives the latch to its pattern (R100). -/
theorem eq_drive_of_exec_apply {s t : State} {p : Pattern} (h : exec (.apply p) s = .next t) : t = s.drive p :=
  (State.eq_drive_of_driveAllowed ((s.issuedBy_eq_next _ _ t).mp h).2).2.1

/-- Settles O22: every bulk write is a `portWrites`, one record for each group in an order drawn freely. -/
theorem bulkWritesGoPortByPort : Obligations.BulkWritesGoPortByPort := by
  refine ⟨fun m b hb => length_filter_portGroups m hb, ?_, fun s mask hctx => ⟨?_, ?_⟩⟩
  · intro s t p h hdiffers hbulk
    refine ⟨offWrites s.cfg (Config.freeOrder s.free) p, onWrites s.cfg (Config.freeOrder (s.free + 1)) p, ?_, ?_, ?_⟩
    · rw [eq_drive_of_exec_apply h, State.drive_trace, if_neg hdiffers]
      simp [State.plan, switchPlan]
    · rw [offWrites_bulk hbulk]
      exact portWrites_perm _ _ _ _
    · rw [onWrites_bulk hbulk]
      exact portWrites_perm _ _ _ _
  · exact ⟨_, _, exec_offw hctx mask, s.writePorts_trace _ _, portWrites_perm _ _ _ _⟩
  · exact ⟨_, _, exec_onw hctx mask, s.writePorts_trace _ _, portWrites_perm _ _ _ _⟩

/-! ### Reads and repeated writes (20_memory R56) -/

/-- Writing a record a second time leaves the latch as it was. -/
theorem writeLatch_writeLatch (l : Pattern) (r : WriteRec) : writeLatch (writeLatch l r) r = writeLatch l r := by
  have hclear (mask : Pattern) : l &&& ~~~mask &&& ~~~mask = l &&& ~~~mask := by
    rw [BitVec.and_assoc, BitVec.and_self]
  have hset (mask : Pattern) : l ||| mask ||| mask = l ||| mask := by
    rw [BitVec.or_assoc, BitVec.or_self]
  match r with
  | .off mask => exact hclear mask
  | .on mask => exact hset mask
  | .pin b false => exact hclear (bitMask b)
  | .pin b true => exact hset (bitMask b)
  | .gap => rfl

/-- The sub-step that makes a record writes the latch as the record says, on any ports (R54, R101 to R104). -/
theorem latch_of_exec_opOfWrite {s t : State} {r : WriteRec} (h : exec (opOfWrite r) s = .next t) :
    t.latch = writeLatch s.latch r := by
  cases r with
  | off mask =>
    obtain ⟨-, ⟨⟩⟩ := (s.issuedBy_eq_next _ _ t).mp h
    rw [s.writePorts_off, writeLatch]
  | on mask =>
    obtain ⟨-, ⟨⟩⟩ := (s.issuedBy_eq_next _ _ t).mp h
    rw [s.writePorts_on, writeLatch]
  | pin b v =>
    obtain ⟨-, hpin⟩ := (s.issuedBy_eq_next _ _ t).mp h
    split at hpin
    · cases hpin
      rfl
    · cases hpin
  | gap =>
    obtain ⟨-, ⟨⟩⟩ := (s.issuedBy_eq_next _ _ t).mp h
    rfl

theorem latch_of_exec_opOfWrite_twice {s t u : State} {r : WriteRec} (h : exec (opOfWrite r) s = .next t)
    (hagain : exec (opOfWrite r) t = .next u) : u.latch = t.latch := by
  rw [latch_of_exec_opOfWrite hagain, latch_of_exec_opOfWrite h, writeLatch_writeLatch]

/-- Settles O31: a read answers a register that it leaves as it is, and a latch write is the sub-step of a record, whose
write is idempotent. -/
theorem readsChangeNothingAndWritesAreIdempotent : Obligations.ReadsChangeNothingAndWritesAreIdempotent := by
  refine ⟨?_, ?_⟩
  · rintro i s t (rfl | rfl) h
    all_goals
      obtain ⟨hctx, ⟨⟩⟩ := (s.issuedBy_eq_next _ _ t).mp h
      exact ⟨rfl, State.issuedBy_mem (s := s.answer _) hctx _⟩
  · rintro i s t u (⟨m, rfl | rfl⟩ | ⟨b, v, rfl⟩) h hagain
    · exact latch_of_exec_opOfWrite_twice (r := .off m) h hagain
    · exact latch_of_exec_opOfWrite_twice (r := .on m) h hagain
    · exact latch_of_exec_opOfWrite_twice (r := .pin b v) h hagain

end Sys2Proof.Machine

namespace Sys2Proof

/-! ### Words, fields and enumerations (30_encoding R73 to R75, R83) -/

/-- A word is the concatenation of two fields exactly when these are its upper and its lower bits. -/
theorem eq_append_iff {m n : Nat} (x : BitVec (m + n)) (hi : BitVec m) (lo : BitVec n) :
    x = hi ++ lo ↔ x.extractLsb' n m = hi ∧ x.extractLsb' 0 n = lo := by
  constructor
  · rintro rfl
    exact ⟨BitVec.extractLsb'_append_eq_left, BitVec.extractLsb'_append_eq_right⟩
  · rintro ⟨rfl, rfl⟩
    exact BitVec.extractLsb'_append_extractLsb'.symm

theorem eq_cmdWord_iff (w : CmdWord) (op : BitVec 4) (f : BitVec 8) :
    w = cmdWord op f ↔ w.extractLsb' 8 4 = op ∧ w.extractLsb' 0 8 = f := eq_append_iff (m := 4) (n := 8) w op f

theorem eq_modeField_iff (f : BitVec 8) (m : DriveMode) :
    f = modeField m ↔ f.extractLsb' 2 6 = 0 ∧ f.extractLsb' 0 2 = m.toBits := eq_append_iff (m := 6) (n := 2) f 0 m.toBits

theorem eq_actionField_iff (f : BitVec 8) (a : Action) :
    f = actionField a ↔ f.extractLsb' 2 6 = 0 ∧ f.extractLsb' 0 2 = a.toBits :=
  eq_append_iff (m := 6) (n := 2) f 0 a.toBits

theorem extractLsb'_extractLsb' {w start len start' len' : Nat} (x : BitVec w) (h : start + len ≤ len') :
    (x.extractLsb' start' len').extractLsb' start len = x.extractLsb' (start' + start) len := by
  ext k hk
  have hin : start + k < len' := by omega
  simp [hin, Nat.add_assoc]

theorem extractLsb'_zero_one {w : Nat} (x : BitVec w) : x.extractLsb' 0 1 = BitVec.ofBool (x.getLsbD 0) := by
  ext k hk
  simp [Nat.lt_one_iff.mp hk]

/-- Format B: the upper half is 0, the next three bits are the bit number, the last one is the level. -/
theorem eq_pinField_iff (f : BitVec 8) (b : Nat) (v : Bool) :
    f = pinField b v ↔ f.extractLsb' 4 4 = 0 ∧ f.extractLsb' 1 3 = BitVec.ofNat 3 b ∧ f.getLsbD 0 = v := by
  rw [pinField, eq_append_iff (m := 7) (n := 1) f, eq_append_iff (m := 4) (n := 3), extractLsb'_extractLsb' f (by omega),
    extractLsb'_extractLsb' f (by omega), extractLsb'_zero_one, BitVec.ofBool_eq_iff_eq, and_assoc]
  rfl

/-- Two bits are those of a drive mode exactly where they decode to it (R74). -/
theorem DriveMode.ofBits_eq_some (b : BitVec 2) (m : DriveMode) : DriveMode.ofBits b = some m ↔ b = m.toBits := by
  revert b
  cases m <;> decide

theorem DriveMode.ofBits_eq_none (b : BitVec 2) : DriveMode.ofBits b = none ↔ b = 3 := by
  revert b
  decide

theorem Action.ofBits_eq_iff (b : BitVec 2) (a : Action) : Action.ofBits b = a ↔ b = a.toBits := by
  revert b
  cases a <;> decide

/-! ### The four operand formats (R85, R86) -/

theorem formatN_eq_none (f : BitVec 8) (i : Instr) : formatN f i = none ↔ f ≠ 0 := by simp [formatN]

theorem formatN_eq_some (f : BitVec 8) (i j : Instr) : formatN f i = some j ↔ f = 0 ∧ i = j := by simp [formatN]

theorem formatM_eq_none (f : BitVec 8) : formatM f = none ↔ f.extractLsb' 2 6 ≠ 0 ∨ f.extractLsb' 0 2 = 3 := by
  by_cases hhigh : f.extractLsb' 2 6 = 0#6 <;> simp [formatM, hhigh, DriveMode.ofBits_eq_none]

theorem formatM_eq_some (f : BitVec 8) (i : Instr) :
    formatM f = some i ↔ ∃ m, f = modeField m ∧ Instr.ofMode m = i := by
  by_cases hhigh : f.extractLsb' 2 6 = 0#6 <;> simp [formatM, hhigh, eq_modeField_iff, DriveMode.ofBits_eq_some]

theorem formatA_eq_none (f : BitVec 8) : formatA f = none ↔ f.extractLsb' 2 6 ≠ 0 := by simp [formatA]

theorem formatA_eq_some (f : BitVec 8) (i : Instr) :
    formatA f = some i ↔ ∃ a, f = actionField a ∧ Instr.ofAction a = i := by
  by_cases hhigh : f.extractLsb' 2 6 = 0#6 <;> simp [formatA, hhigh, eq_actionField_iff, ← Action.ofBits_eq_iff]

theorem formatB_eq_none (f : BitVec 8) : formatB f = none ↔ f.extractLsb' 4 4 ≠ 0 := by simp [formatB]

theorem formatB_eq_some (f : BitVec 8) (i : Instr) :
    formatB f = some i ↔ ∃ b v, b < 8 ∧ f = pinField b v ∧ Instr.pinw b v = i := by
  by_cases hhigh : f.extractLsb' 4 4 = 0#4
  · simp only [formatB, hhigh, eq_pinField_iff]
    constructor
    · rintro ⟨⟩
      exact ⟨_, _, (f.extractLsb' 1 3).isLt, ⟨rfl, by rw [BitVec.ofNat_toNat, BitVec.setWidth_eq], rfl⟩, rfl⟩
    · rintro ⟨b, v, hb, ⟨-, hbit, rfl⟩, rfl⟩
      simp [hbit, Nat.mod_eq_of_lt hb]
  · simp [formatB, hhigh, eq_pinField_iff]

/-! ### The decoder by operation code (R84) -/

theorem cmdWord_op (op : BitVec 4) (f : BitVec 8) : (cmdWord op f).extractLsb' 8 4 = op :=
  ((eq_cmdWord_iff _ op f).mp rfl).1

theorem cmdWord_operand (op : BitVec 4) (f : BitVec 8) : (cmdWord op f).extractLsb' 0 8 = f :=
  ((eq_cmdWord_iff _ op f).mp rfl).2

/-- The case split over the sixteen operation codes (R84). -/
theorem opcode_cases {motive : BitVec 4 → Prop}
    (code0 : motive 0x0) (code1 : motive 0x1) (code2 : motive 0x2) (code3 : motive 0x3) (code4 : motive 0x4)
    (code5 : motive 0x5) (code6 : motive 0x6) (code7 : motive 0x7) (code8 : motive 0x8) (code9 : motive 0x9)
    (codeA : motive 0xA) (codeB : motive 0xB) (codeC : motive 0xC) (codeD : motive 0xD) (codeE : motive 0xE)
    (codeF : motive 0xF) (op : BitVec 4) : motive op := by
  obtain ⟨n, hn, rfl⟩ : ∃ n < 16, op = BitVec.ofNat 4 n :=
    ⟨op.toNat, op.isLt, by rw [BitVec.ofNat_toNat, BitVec.setWidth_eq]⟩
  interval_cases n <;> assumption

theorem encode_ofMode (m : DriveMode) : encode (Instr.ofMode m) = cmdWord 0x2 (modeField m) := by cases m <;> rfl

theorem encode_ofAction (a : Action) : encode (Instr.ofAction a) = cmdWord 0xC (actionField a) := by cases a <;> rfl

theorem wf_ofMode (m : DriveMode) : (Instr.ofMode m).wf = true := by cases m <;> rfl

theorem wf_ofAction (a : Action) : (Instr.ofAction a).wf = true := by cases a <;> rfl

/-- Settles O1: the operation's code selects the format of its operand field, and the format reads the operand back. -/
theorem decodeOfEncodeIsIdentity : Obligations.DecodeOfEncodeIsIdentity := by
  intro i hwf
  cases i
  all_goals rw [encode, decode, cmdWord_op, cmdWord_operand]
  case apply | offw | onw => rfl
  case advWave | advFull | advHalf => exact (formatM_eq_some _ _).mpr ⟨_, rfl, rfl⟩
  case actNone | actStop | actRev | actHome => exact (formatA_eq_some _ _).mpr ⟨_, rfl, rfl⟩
  case pinw b v => exact (formatB_eq_some _ _).mpr ⟨b, v, of_decide_eq_true hwf, rfl, rfl⟩
  all_goals exact (formatN_eq_some _ _ _).mpr ⟨rfl, rfl⟩

/-- Settles O2: by operation code; what each format answers is the operation with the operand that it read. -/
theorem encodeOfDecodeIsIdentity : Obligations.EncodeOfDecodeIsIdentity := by
  intro w i h
  obtain ⟨op, f, rfl⟩ : ∃ op f, w = cmdWord op f := ⟨_, _, (eq_cmdWord_iff _ _ _).mpr ⟨rfl, rfl⟩⟩
  rw [decode, cmdWord_op, cmdWord_operand] at h
  cases op using opcode_cases with
  | code0 => cases h
  | code2 =>
    obtain ⟨m, rfl, rfl⟩ := (formatM_eq_some f i).mp h
    exact ⟨encode_ofMode m, wf_ofMode m⟩
  | code3 | code5 | code6 =>
    cases h
    exact ⟨rfl, rfl⟩
  | codeC =>
    obtain ⟨a, rfl, rfl⟩ := (formatA_eq_some f i).mp h
    exact ⟨encode_ofAction a, wf_ofAction a⟩
  | codeF =>
    obtain ⟨b, v, hb, rfl, rfl⟩ := (formatB_eq_some f i).mp h
    exact ⟨rfl, decide_eq_true hb⟩
  | code1 | code4 | code7 | code8 | code9 | codeA | codeB | codeD | codeE =>
    obtain ⟨rfl, rfl⟩ := (formatN_eq_some f _ i).mp h
    exact ⟨rfl, rfl⟩

/-- The reserved words, by operation code: those that the code's format refuses (R86). -/
theorem decode_eq_none_iff (op : BitVec 4) (f : BitVec 8) : decode (cmdWord op f) = none ↔
    op = 0x0 ∨
    (op ∈ [0x1#4, 0x4, 0x7, 0x8, 0x9, 0xA, 0xB, 0xD, 0xE] ∧ f ≠ 0) ∨
    (op = 0x2 ∧ (f.extractLsb' 2 6 ≠ 0 ∨ f.extractLsb' 0 2 = 3)) ∨
    (op = 0xC ∧ f.extractLsb' 2 6 ≠ 0) ∨
    (op = 0xF ∧ f.extractLsb' 4 4 ≠ 0) := by
  rw [decode, cmdWord_op, cmdWord_operand]
  cases op using opcode_cases with
  | code0 | code3 | code5 | code6 => simp
  | code2 => exact (formatM_eq_none f).trans (by simp)
  | codeC => exact (formatA_eq_none f).trans (by simp)
  | codeF => exact (formatB_eq_none f).trans (by simp)
  | code1 | code4 | code7 | code8 | code9 | codeA | codeB | codeD | codeE =>
    exact (formatN_eq_none f _).trans (by simp)

/-- Settles O4: eight of the words are command words of well-formed operations, the other five are reserved. -/
theorem sampleWordsDecodeAsTabled : Obligations.SampleWordsDecodeAsTabled :=
  ⟨decodeOfEncodeIsIdentity .tick rfl, decodeOfEncodeIsIdentity .advHalf rfl,
    decodeOfEncodeIsIdentity (.apply 0xC3) rfl, decodeOfEncodeIsIdentity (.offw 0x3C) rfl,
    decodeOfEncodeIsIdentity .poll rfl, decodeOfEncodeIsIdentity .actRev rfl,
    decodeOfEncodeIsIdentity (.pinw 6 true) rfl, decodeOfEncodeIsIdentity (.pinw 7 false) rfl,
    (decode_eq_none_iff 0x2 0x03).mpr (by decide), (decode_eq_none_iff 0x4 0x01).mpr (by decide),
    (decode_eq_none_iff 0xC 0x04).mpr (by decide), (decode_eq_none_iff 0xF 0x10).mpr (by decide),
    (decode_eq_none_iff 0x0 0x00).mpr (by decide)⟩

/-- Settles O5: the codes are those of the definitions, and decoding inverts them. -/
theorem enumerationsHaveTheirCodes : Obligations.EnumerationsHaveTheirCodes :=
  ⟨⟨rfl, rfl⟩, ⟨rfl, rfl⟩, fun m => (DriveMode.ofBits_eq_some _ m).mpr rfl, ⟨rfl, rfl, rfl⟩,
    fun b => ((Action.ofBits_eq_iff b _).mp rfl).symm, ⟨rfl, rfl, rfl, rfl⟩⟩

end Sys2Proof

namespace Sys2Proof.Machine

/-! ### A step that takes an issued word (30_encoding R84 to R86) -/

/-- With no interrupt due, an issued word is taken in its issuer's context. -/
theorem State.take_issue {s : State} {c : Ctx} {w : CmdWord} {rest : List Event} (hinbox : s.inbox = .issue c w :: rest)
    (hdue : s.interruptDue = false) : s.take = .issue w (State.issueAs { s with inbox := rest } c) := by
  rw [take, hdue, takeEvent, hinbox]
  rfl

section
variable {s : State} {c : Ctx} {w : CmdWord} {rest : List Event} (hok : configOk s.cfg = true)
  (hinbox : s.inbox = .issue c w :: rest) (hdue : s.interruptDue = false)
include hok hinbox hdue

theorem step_issue_some {i : Instr} (hdecode : decode w = some i) :
    step s = exec i (State.issueAs { s with inbox := rest } c) := by
  simp only [step, if_pos hok, State.take_issue hinbox hdue, hdecode]

theorem step_issue_none (hdecode : decode w = none) : step s = .refused .reservedEncoding := by
  simp only [step, if_pos hok, State.take_issue hinbox hdue, hdecode]

end

/-- Settles O3: a word is its operation code and its operand field, and a step decodes the word that it takes. -/
theorem reservedWordsAreRefused : Obligations.ReservedWordsAreRefused :=
  ⟨decode_eq_none_iff, (DriveMode.ofBits_eq_none 3).mpr rfl, fun _ _ _ _ hok hinbox hdue => step_issue_none hok hinbox hdue⟩

/-- Settles O15: the word is taken in its issuer's context, decoded and executed. -/
theorem stepRunsTheIssuedOperation : Obligations.StepRunsTheIssuedOperation := by
  intro s c w rest i hok hinbox hdue hdecode
  rw [step_issue_some hok hinbox hdue hdecode, State.issueAs_eq]

/-! ### A placed word (notes/assumptions/15.md) -/

/-- A table word that decodes is the command word of its low bits. -/
theorem decode_of_decodeTableWord {nbits w : Nat} {i : Instr} (h : decodeTableWord nbits w = some i) :
    decode (BitVec.ofNat 12 (w % 2 ^ nbits)) = some i := by
  rw [decodeTableWord] at h
  split at h
  · exact h
  · cases h

/-- A placed word that decodes runs at the state it was placed in. -/
theorem step_place {s : State} {c : Ctx} {w : CmdWord} {i : Instr} (hok : configOk s.cfg = true)
    (hdue : (s.place c w).interruptDue = false) (hdecode : decode w = some i) :
    step (s.place c w) = exec i (s.issueAs c) :=
  step_issue_some (s := s.place c w) hok rfl hdue hdecode

/-- No interrupt goes before a placed operation: it is a sub-step of a `TICK` or the timer's own, or the state it needs is
`Stopped` or has no period pending. -/
theorem State.place_not_interruptDue (s : State) (i : Instr) (w : CmdWord) :
    ((s.readyFor i).place (issuerOf i) w).interruptDue = false := by
  cases i with
  | tick => simp [State.interruptDue, issuerOf, tickIssued]
  | advWave | advFull | advHalf | stop | classify | apply | offw | onw | dt | pinw =>
    exact State.not_interruptDue_of_tickGoesOn rfl
  | brake | actStop | actRev | actHome | poll | rdstep | rdlatch | resume | actNone =>
    simp [State.interruptDue, State.readyFor]

theorem withFetchWord_eq (s : State) {nbits w : Nat} {i : Instr} (h : decodeTableWord nbits w = some i) :
    s.withFetchWord nbits w = (s.readyFor i).place (issuerOf i) (BitVec.ofNat 12 (w % 2 ^ nbits)) := by
  rw [State.withFetchWord, h]

/-- Settles O19: the word is placed first, no interrupt goes before it, and it decodes. -/
theorem placedWordRunsNext : Obligations.PlacedWordRunsNext := by
  intro s nbits w i htable hok
  rw [withFetchWord_eq s htable]
  exact step_place hok (s.place_not_interruptDue i _) (decode_of_decodeTableWord htable)

/-! ### Operations out of place (30_encoding R84, R87, 60_exceptions R187, R196) -/

/-- The contexts that may issue an operation (R84, R87). -/
def issuers : Instr → List Ctx
  | .tick => [.timer]
  | .advWave | .advFull | .advHalf | .stop => [.inside .tick]
  | .apply _ => [.foreground, .inside .adv, .inside .brake]
  | .brake | .poll => [.foreground]
  | .offw _ | .onw _ | .dt | .pinw _ _ => [.inside .apply]
  | .resume => [.inside .act]
  | .classify => [.inside .tick, .inside .poll]
  | .actNone | .actStop | .actRev | .actHome => [.inside .poll]
  | .rdstep => [.foreground, .inside .poll]
  | .rdlatch => [.foreground, .inside .apply]

theorem timer_mem_issuers (i : Instr) : .timer ∈ issuers i ↔ i = .tick := by
  cases i <;> simp [issuers]

theorem foreground_mem_issuers (i : Instr) :
    .foreground ∈ issuers i ↔ i = .poll ∨ i = .rdstep ∨ i = .rdlatch ∨ i = .brake ∨ ∃ p, i = .apply p := by
  cases i <;> simp [issuers]

theorem exec_actHome (s : State) :
    exec .actHome s = if s.cfg.homeVariant then s.actAs .homeAndReport else .refused .reservedEncoding := rfl

theorem exec_ofMode (m : DriveMode) (s : State) : exec (Instr.ofMode m) s = s.advanceAs m := by cases m <;> rfl

/-- An operation that its context does not issue is refused (R84, R87, R187). -/
theorem exec_of_not_mem_issuers {i : Instr} {s : State} (h : s.ctx ∉ issuers i) :
    exec i s = .refused .reservedEncoding := by
  cases i with
  | actHome =>
    rw [exec_actHome]
    split
    · exact State.issuedBy_not_mem h _
    · rfl
  | _ => exact State.issuedBy_not_mem h _

/-- A refusal of the operation is the same refusal whether or not the context may issue it. -/
theorem State.issuedBy_reservedEncoding (s : State) (cs : List Ctx) :
    s.issuedBy cs (.refused .reservedEncoding) = .refused .reservedEncoding := ite_self _

theorem State.advanceAs_refused {s : State} {m : DriveMode} (h : ¬(s.run = .running ∧ s.cfg.mode = m)) :
    s.advanceAs m = .refused .reservedEncoding := by
  rw [advanceAs, if_neg h, issuedBy_reservedEncoding]

theorem State.actAs_running {s : State} {a : Action} (ha : a ≠ .none) (hrun : s.run = .running) :
    s.actAs a = .refused .reservedEncoding := by
  rw [actAs, if_pos ⟨ha, hrun⟩, issuedBy_reservedEncoding]

theorem exec_actHome_running {s : State} (hrun : s.run = .running) : exec .actHome s = .refused .reservedEncoding := by
  rw [exec_actHome, State.actAs_running (by decide) hrun, ite_self]

theorem State.driveAllowed_running {s : State} (hrun : s.run = .running)
    (hctx : s.ctx = .foreground ∨ s.ctx = .inside .brake) (o : Out) :
    s.driveAllowed o = .refused .foregroundDriveWhileRunning := by
  simp only [driveAllowed, hrun, if_pos hctx]

theorem State.driveAllowed_stopped_adv {s : State} (hrun : s.run = .stopped) (hctx : s.ctx = .inside .adv) (o : Out) :
    s.driveAllowed o = .refused .reservedEncoding := by
  simp only [driveAllowed, hrun, if_pos hctx]

theorem exec_apply {s : State} (p : Pattern) (hctx : s.ctx ∈ [.foreground, .inside .adv, .inside .brake]) :
    exec (.apply p) s = s.driveAllowed (s.applyPattern p) := State.issuedBy_mem hctx _

theorem exec_brake {s : State} (hctx : s.ctx = .foreground) :
    exec .brake s = s.driveAllowed (s.applyPattern shortBrake) := State.issuedBy_mem (List.mem_singleton.mpr hctx) _

theorem exec_pinw_bulk {s : State} (hbulk : s.cfg.granularity = .bulk) (b : Nat) (v : Bool) :
    exec (.pinw b v) s = .refused .reservedEncoding := by
  have hno : ¬(s.cfg.granularity = .perPin ∧ b < 8) := by simp [hbulk]
  exact (congrArg _ (if_neg hno)).trans (s.issuedBy_reservedEncoding _)

/-- Settles O49: a context that issues no such operation, then the check of each operation on `RUN` and the configuration. -/
theorem operationsOutOfPlaceAreRefused : Obligations.OperationsOutOfPlaceAreRefused := by
  intro s i
  refine ⟨?_, ?_, ?_, ?_, ?_, ?_, ?_, ?_, ?_, ?_⟩
  · intro hctx htick
    apply exec_of_not_mem_issuers
    rw [hctx, timer_mem_issuers]
    exact htick
  · intro hctx hpoll hrdstep hrdlatch hbrake happly
    apply exec_of_not_mem_issuers
    rw [hctx, foreground_mem_issuers]
    rintro (hi | hi | hi | hi | ⟨p, hi⟩)
    exacts [hpoll hi, hrdstep hi, hrdlatch hi, hbrake hi, happly p hi]
  · rintro hctx hrun (rfl | ⟨p, rfl⟩)
    · rw [exec_brake hctx, State.driveAllowed_running hrun (.inl hctx)]
    · rw [exec_apply p (by simp [hctx]), State.driveAllowed_running hrun (.inl hctx)]
  · rintro hctx hrun ⟨p, rfl⟩
    rw [exec_apply p (by simp [hctx]), State.driveAllowed_running hrun (.inr hctx)]
  · rintro hctx hrun ⟨p, rfl⟩
    rw [exec_apply p (by simp [hctx]), State.driveAllowed_stopped_adv hrun hctx]
  · rintro - hrun ⟨m, rfl⟩
    rw [exec_ofMode, State.advanceAs_refused (by simp [hrun])]
  · rintro m hm rfl
    rw [exec_ofMode, State.advanceAs_refused (by simp [hm.symm])]
  · rintro hrun (rfl | rfl | rfl)
    · exact State.actAs_running (by decide) hrun
    · exact State.actAs_running (by decide) hrun
    · exact exec_actHome_running hrun
  · rintro hvariant rfl
    simp [exec_actHome, hvariant]
  · rintro hbulk ⟨b, v, rfl⟩
    exact exec_pinw_bulk hbulk b v

/-! ### The phase tables (30_encoding R77 to R79) -/

/-- The entry that an index selects is that of its residue. -/
theorem selected_eq_of_emod {c : Config} {m : DriveMode} {n : Int} {k : Nat} (h : n % (tableLen m : Int) = k) :
    selected c m n = tableEntry c m k := by
  rw [selected, tableIndex, h, Int.toNat_natCast]

theorem pat_singleton (c : Config) (x : Phase) : pat c [x] = phasePattern c x := BitVec.or_zero

theorem pat_pair (c : Config) (x y : Phase) : pat c [x, y] = phasePattern c x ||| phasePattern c y :=
  congrArg (phasePattern c x ||| ·) BitVec.or_zero

/-- At its even indices the half-step table is the wave table (R79). -/
theorem tableEntry_halfStep_even (c : Config) {k : Nat} (hk : k < 4) :
    tableEntry c .halfStep (2 * k) = tableEntry c .wave k := by
  interval_cases k <;> rfl

/-- At its odd indices the half-step table is the full-step table (R79). -/
theorem tableEntry_halfStep_odd (c : Config) {k : Nat} (hk : k < 4) :
    tableEntry c .halfStep (2 * k + 1) = tableEntry c .fullStep k := by
  interval_cases k <;> rfl

theorem tableIndex_two_mul (n : Int) : tableIndex (2 * n) 8 = 2 * tableIndex n 4 := by
  unfold tableIndex; omega

theorem tableIndex_two_mul_add_one (n : Int) : tableIndex (2 * n + 1) 8 = 2 * tableIndex n 4 + 1 := by
  unfold tableIndex; omega

/-- Settles O9: the residue of the index selects the entry, and that of `2 * n` modulo 8 is twice that of `n` modulo 4. -/
theorem phaseTablesCycleInOrder : Obligations.PhaseTablesCycleInOrder := by
  intro c n
  have hindex : tableIndex n 4 < 4 := tableIndex_lt_of_pos n (by decide)
  refine ⟨?_, ?_, ?_, ?_⟩
  · intro k x hmem hk
    rw [selected_eq_of_emod (m := .wave) hk, ← pat_singleton]
    simp only [List.mem_cons, Prod.mk.injEq, List.not_mem_nil, or_false] at hmem
    obtain ⟨rfl, rfl⟩ | ⟨rfl, rfl⟩ | ⟨rfl, rfl⟩ | ⟨rfl, rfl⟩ := hmem <;> rfl
  · intro k x y hmem hk
    rw [selected_eq_of_emod (m := .fullStep) hk, ← pat_pair]
    simp only [List.mem_cons, Prod.mk.injEq, List.not_mem_nil, or_false] at hmem
    obtain ⟨rfl, rfl, rfl⟩ | ⟨rfl, rfl, rfl⟩ | ⟨rfl, rfl, rfl⟩ | ⟨rfl, rfl, rfl⟩ := hmem <;> rfl
  · rw [selected, tableLen, tableIndex_two_mul, tableEntry_halfStep_even c hindex, selected, tableLen]
  · rw [selected, tableLen, tableIndex_two_mul_add_one, tableEntry_halfStep_odd c hindex, selected, tableLen]

/-! ### Legality (30_encoding R72) -/

theorem legal_iff (p : Pattern) : legal p = true ↔ ∀ leg < 4, ¬(p.getLsbD (leg + 4) = true ∧ p.getLsbD leg = true) := by
  rw [legal, beq_iff_eq, BitVec.eq_of_getLsbD_eq_iff]
  simp +contextual [Nat.add_comm]

/-- Settles O6: `legal` compares the two halves of the pattern leg by leg; the count is evaluated. -/
theorem legalMeansNoLegHasBothSwitchesOn : Obligations.LegalMeansNoLegHasBothSwitchesOn :=
  ⟨legal_iff, by decide, by decide, by decide⟩

end Sys2Proof.Machine

namespace Sys2Proof.Machine

/-! ### Where an `APPLY` may drive the latch (30_encoding R84, 20_memory R60 (c), R222) -/

/-- The states in which an `APPLY` runs: inside the `ADV.m` of a running `TICK`, or while `Stopped` from the foreground or
inside its `BRAKE`. -/
def State.MayDrive (s : State) : Prop :=
  (s.ctx = .inside .adv ∧ s.run = .running) ∨ ((s.ctx = .foreground ∨ s.ctx = .inside .brake) ∧ s.run = .stopped)

/-- Where it may drive, an `APPLY` is the shared operation of its pattern. -/
theorem State.MayDrive.exec_apply {s : State} (h : s.MayDrive) (p : Pattern) : exec (.apply p) s = s.applyPattern p := by
  obtain ⟨hctx, hrun⟩ | ⟨hctx | hctx, hrun⟩ := h
  all_goals
    rw [Machine.exec_apply p (by simp [hctx])]
    simp [driveAllowed, hctx, hrun]

/-- What an `APPLY` can answer: in a state that may drive, the state driven to its legal pattern (R100, R105). -/
theorem exec_apply_eq_next (s t : State) (p : Pattern) :
    exec (.apply p) s = .next t ↔ s.MayDrive ∧ legal p = true ∧ s.drive p = t := by
  constructor
  · intro h
    obtain ⟨hctx, hdrive⟩ := (s.issuedBy_eq_next _ _ t).mp h
    obtain ⟨happly, hrunning, hstopped⟩ := (s.driveAllowed_eq_next _ t).mp hdrive
    refine ⟨?_, (s.applyPattern_eq_next p t).mp happly⟩
    cases hrun : s.run with
    | running => exact .inl ⟨by simpa [hrunning hrun] using hctx, hrun⟩
    | stopped => exact .inr ⟨by simpa [hstopped hrun] using hctx, hrun⟩
  · rintro ⟨hmay, happly⟩
    rw [hmay.exec_apply, State.applyPattern_eq_next]
    exact happly

/-- An `APPLY` writes no field that says who may drive. -/
theorem State.MayDrive.drive {s : State} (h : s.MayDrive) (p : Pattern) : (s.drive p).MayDrive := by
  simpa only [MayDrive, drive_ctx, drive_run] using h

/-! ### The trace of one `APPLY` (40_coil_driver R100, R104, R110) -/

/-- A command word is its operation code above its operand field (R83). -/
theorem cmdWord_eq_or (op : BitVec 4) (f : BitVec 8) : cmdWord op f = op.setWidth 12 <<< 8 ||| f.setWidth 12 := by
  rw [cmdWord, BitVec.append_def, BitVec.shiftLeftZeroExtend_eq, BitVec.setWidth'_eq]

/-- An `APPLY` of a differing pattern adds its off-writes, the gap, and its on-writes (R110). -/
theorem State.drive_differs_trace {s : State} {p : Pattern} (h : s.latch ≠ p) :
    (s.drive p).trace = s.trace ++ offWrites s.cfg (Config.freeOrder s.free) p ++ [.gap] ++
      onWrites s.cfg (Config.freeOrder (s.free + 1)) p := by
  simp [drive_differs s p h, plan, switchPlan]

/-- The gap is spent at `old & p` (R101). -/
theorem State.performAll_offWrites_latch (s : State) (k : Nat) (p : Pattern) :
    (s.performAll (offWrites s.cfg k p)).latch = s.latch &&& p := by
  rw [performAll_eq]
  exact writesLatch_offWrites s.cfg k p s.latch

theorem offWrites_bulk_onePort {c : Config} (hbulk : c.granularity = .bulk) (hport : onOnePort c.portOf = true) (k : Nat)
    (p : Pattern) : offWrites c k p = [.off (~~~p)] := by
  rw [offWrites_bulk hbulk, portWrites_onePort c k _ _ (portGroups_onePort hport)]

theorem onWrites_bulk_onePort {c : Config} (hbulk : c.granularity = .bulk) (hport : onOnePort c.portOf = true) (k : Nat)
    (p : Pattern) : onWrites c k p = [.on p] := by
  rw [onWrites_bulk hbulk, portWrites_onePort c k _ _ (portGroups_onePort hport)]

theorem offWrites_perPin_perm {c : Config} (hpin : c.granularity = .perPin) (k : Nat) (p : Pattern) :
    (offWrites c k p).Perm ((bitsAt p false).map (fun b => .pin b false)) := by
  rw [offWrites, hpin]
  exact (permute_perm k _).map _

theorem onWrites_perPin_perm {c : Config} (hpin : c.granularity = .perPin) (k : Nat) (p : Pattern) :
    (onWrites c k p).Perm ((bitsAt p true).map (fun b => .pin b true)) := by
  rw [onWrites, hpin]
  exact (permute_perm k _).map _

theorem bitsAt_false (p : Pattern) : bitsAt p false = (List.range 8).filter (fun b => !p.getLsbD b) :=
  List.filter_congr fun _ _ => beq_false _

theorem bitsAt_true (p : Pattern) : bitsAt p true = (List.range 8).filter (fun b => p.getLsbD b) :=
  List.filter_congr fun _ _ => beq_true _

/-- Settles O20: where it may drive, an `APPLY` is the shared operation, which faults, keeps the state, or runs its plan. -/
theorem applyDrivesTheLatchToThePattern : Obligations.ApplyDrivesTheLatchToThePattern := by
  intro s p hmay
  rw [State.MayDrive.exec_apply hmay]
  refine ⟨cmdWord_eq_or 0x3 p, s.applyPattern_illegal, ?_, ?_⟩
  · intro hlegal hsame
    rw [s.applyPattern_legal hlegal, s.drive_same p hsame]
  · intro hlegal hdiffers
    refine ⟨_, _, ?_, s.performAll_offWrites_latch (Config.freeOrder s.free) p, fun hbulk hport =>
      ⟨offWrites_bulk_onePort hbulk hport _ p, onWrites_bulk_onePort hbulk hport (Config.freeOrder (s.free + 1)) p⟩⟩
    rw [s.applyPattern_legal hlegal, ← State.drive_differs_trace hdiffers, s.drive_differs p hdiffers]

/-- Settles O21: the three parts of the plan, record by record, and the latch of the gap. -/
theorem offWritesPrecedeTheGapAndOnWritesFollow : Obligations.OffWritesPrecedeTheGapAndOnWritesFollow := by
  intro s t p h hdiffers
  rw [eq_drive_of_exec_apply h]
  refine ⟨_, _, State.drive_differs_trace hdiffers, ?_, ?_, ?_⟩
  · intro hbulk hport
    exact ⟨offWrites_bulk_onePort hbulk hport _ p, onWrites_bulk_onePort hbulk hport _ p⟩
  · intro hpin
    rw [← bitsAt_false, ← bitsAt_true]
    exact ⟨offWrites_perPin_perm hpin _ p, onWrites_perPin_perm hpin _ p⟩
  · intro b _ _ hoff
    rw [s.performAll_offWrites_latch, BitVec.getLsbD_and, hoff, Bool.and_false]

/-- Settles O24: after an `APPLY` the latch holds its pattern, and an `APPLY` of the pattern held keeps the state. -/
theorem applyTwiceWritesOnce : Obligations.ApplyTwiceWritesOnce := by
  intro s t p h
  obtain ⟨hmay, hlegal, rfl⟩ := (exec_apply_eq_next s t p).mp h
  exact ⟨(exec_apply_eq_next _ _ p).mpr ⟨hmay.drive p, hlegal, State.drive_same _ p (s.drive_latch p)⟩, s.drive_same p⟩

/-! ### The latch during an `APPLY` (40_coil_driver R106) -/

/-- Every switch that `x` has on, `y` has on. -/
def Within (x y : Pattern) : Prop := ∀ b < 8, x.getLsbD b = true → y.getLsbD b = true

theorem Within.refl (x : Pattern) : Within x x := fun _ _ h => h

theorem Within.trans {x y z : Pattern} (hxy : Within x y) (hyz : Within y z) : Within x z :=
  fun b hb h => hyz b hb (hxy b hb h)

theorem and_within (x y : Pattern) : Within (x &&& y) x := fun b _ h => by
  rw [BitVec.getLsbD_and, Bool.and_eq_true] at h
  exact h.1

theorem within_or (x y : Pattern) : Within x (x ||| y) := fun b _ h => by
  rw [BitVec.getLsbD_or, h, Bool.true_or]

/-- Turning switches off keeps a pattern legal (R72). -/
theorem Within.legal {x y : Pattern} (h : Within x y) (hy : legal y = true) : legal x = true := by
  rw [legal_iff] at hy ⊢
  rintro leg hleg ⟨hhigh, hlow⟩
  exact hy leg hleg ⟨h _ (by omega) hhigh, h _ (by omega) hlow⟩

/-- A record whose write turns no switch on. -/
def WriteRec.TurnsNoneOn (r : WriteRec) : Prop := ∀ l, Within (writeLatch l r) l

/-- A record whose write turns no switch off. -/
def WriteRec.TurnsNoneOff (r : WriteRec) : Prop := ∀ l, Within l (writeLatch l r)

theorem turnsNoneOn_of_mem_offWrites {c : Config} {k : Nat} {p : Pattern} {r : WriteRec} (h : r ∈ offWrites c k p) :
    r.TurnsNoneOn := by
  unfold offWrites at h
  split at h <;> obtain ⟨_, -, rfl⟩ := List.mem_map.mp h
  · exact fun l => and_within l _
  · exact fun l => and_within l _

theorem turnsNoneOff_of_mem_onWrites {c : Config} {k : Nat} {p : Pattern} {r : WriteRec} (h : r ∈ onWrites c k p) :
    r.TurnsNoneOff := by
  unfold onWrites at h
  split at h <;> obtain ⟨_, -, rfl⟩ := List.mem_map.mp h
  · exact fun l => within_or l _
  · exact fun l => within_or l _

theorem turnsNoneOff_gap : WriteRec.gap.TurnsNoneOff := Within.refl

theorem writesLatch_within {rs : List WriteRec} (h : ∀ r ∈ rs, r.TurnsNoneOn) (l : Pattern) :
    Within (writesLatch l rs) l := by
  induction rs generalizing l with
  | nil => exact .refl l
  | cons r rs ih =>
    obtain ⟨hr, hrs⟩ := List.forall_mem_cons.mp h
    exact (ih hrs _).trans (hr l)

theorem within_writesLatch {rs : List WriteRec} (h : ∀ r ∈ rs, r.TurnsNoneOff) (l : Pattern) :
    Within l (writesLatch l rs) := by
  induction rs generalizing l with
  | nil => exact .refl l
  | cons r rs ih =>
    obtain ⟨hr, hrs⟩ := List.forall_mem_cons.mp h
    exact (hr l).trans (ih hrs _)

/-- Part of the way through a plan, the latch is within the old pattern, when only off-writes are done, or within the new
one, when only writes that turn nothing off are left. -/
theorem writesLatch_done_within {c : Config} {kOff kOn : Nat} {p : Pattern} {done left : List WriteRec}
    (h : done ++ left = switchPlan c kOff kOn p) (l : Pattern) :
    Within (writesLatch l done) l ∨ Within (writesLatch l done) p := by
  have hend : writesLatch (writesLatch l done) left = p := by
    rw [← writesLatch_append, h, writesLatch_switchPlan]
  obtain ⟨offLeft, hoff, -⟩ | ⟨onDone, -, hon⟩ := List.append_eq_append_iff.mp h
  · refine .inl (writesLatch_within (fun r hr => turnsNoneOn_of_mem_offWrites (c := c) (k := kOff) (p := p) ?_) l)
    rw [hoff]
    exact List.mem_append_left _ hr
  · have hleft : ∀ r ∈ left, r.TurnsNoneOff := by
      intro r hr
      have hmem : r ∈ WriteRec.gap :: onWrites c kOn p := hon ▸ List.mem_append_right _ hr
      obtain rfl | hmem := List.mem_cons.mp hmem
      · exact turnsNoneOff_gap
      · exact turnsNoneOff_of_mem_onWrites hmem
    exact .inr (by simpa only [hend] using within_writesLatch hleft (writesLatch l done))

/-- Settles O23: the latch in flight is within the old pattern or within the new one, and both are legal. -/
theorem everyInFlightLatchIsLegal : Obligations.EveryInFlightLatchIsLegal := by
  intro s p hold hnew k
  rw [State.performAll_eq]
  obtain hwithin | hwithin := writesLatch_done_within (List.take_append_drop k (s.plan p)) s.latch
  · exact hwithin.legal hold
  · exact hwithin.legal hnew

/-! ### The operations of the Coil Driver one by one (40_coil_driver R101 to R108) -/

/-- Settles O25: `BRAKE` is the `APPLY` of the short brake, which is legal; the frame is that of the shared `APPLY`. -/
theorem brakeAppliesTheShortBrake : Obligations.BrakeAppliesTheShortBrake := by
  intro s hctx hrun
  have hmay : s.MayDrive := .inr ⟨.inl hctx, hrun⟩
  have hbrake : exec .brake s = exec (.apply shortBrake) s := by
    rw [exec_brake hctx, exec_apply _ (by simp [hctx])]
  have hnext : exec .brake s = .next (s.drive shortBrake) := by
    rw [hbrake, hmay.exec_apply, s.applyPattern_legal (by decide)]
  exact ⟨hbrake, s.drive shortBrake, hnext, s.drive_latch _, s.drive_step _, s.drive_rot _, s.drive_run _,
    s.drive_tickPending _, s.drive_cfg _, s.drive_ret _, s.drive_calls _, s.drive_inbox _⟩

theorem State.writePorts_onePort_trace (s : State) (write : Pattern → WriteRec) (mask : Pattern)
    (hport : onOnePort s.cfg.portOf = true) : (s.writePorts write mask).trace = s.trace ++ [write mask] := by
  rw [writePorts_trace, portWrites_onePort _ _ _ _ (portGroups_onePort hport)]

/-- Settles O26: `ONW` writes port by port, on one port by a single record. -/
theorem onwSetsTheMaskedSwitches : Obligations.OnwSetsTheMaskedSwitches := by
  intro s mask
  refine ⟨cmdWord_eq_or 0x6 mask, fun hctx => ⟨_, exec_onw hctx mask, ?_, s.writePorts_onePort_trace _ _⟩,
    fun hbulk hport k => onWrites_bulk_onePort hbulk hport k mask⟩
  rw [s.writePorts_on]

/-- Settles O27: `OFFW` writes port by port, on one port by a single record. -/
theorem offwClearsTheMaskedSwitches : Obligations.OffwClearsTheMaskedSwitches := by
  intro s mask hctx
  refine ⟨_, exec_offw hctx mask, ?_, s.writePorts_onePort_trace _ _, fun b hb => ?_⟩
  · rw [s.writePorts_off]
  · simp [s.writePorts_off, hb]

/-- Settles O28: `DT` performs the gap, which writes the latch as it was. -/
theorem deadTimeOnlyMarksTheGap : Obligations.DeadTimeOnlyMarksTheGap :=
  fun _ hctx => State.issuedBy_mem (List.mem_singleton.mpr hctx) _

/-- Inside a per-pin `APPLY`, `PINW` performs its record (R104). -/
theorem exec_pinw {s : State} (hctx : s.ctx = .inside .apply) (hpin : s.cfg.granularity = .perPin) {b : Nat} (hb : b < 8)
    (v : Bool) : exec (.pinw b v) s = .next (s.perform (.pin b v)) :=
  (State.issuedBy_mem (List.mem_singleton.mpr hctx) _).trans (if_pos ⟨hpin, hb⟩)

/-- The write of one switch, bit by bit (R104). -/
theorem getLsbD_writeLatch_pin (l : Pattern) (b : Nat) (v : Bool) {i : Nat} (hi : i < 8) :
    (writeLatch l (.pin b v)).getLsbD i = if i = b then v else l.getLsbD i := by
  cases v with
  | false =>
    rw [writeLatch_pin_false, BitVec.getLsbD_and, BitVec.getLsbD_not, getLsbD_bitMask b i hi]
    by_cases h : i = b <;> simp [h, hi]
  | true =>
    rw [writeLatch_pin_true, BitVec.getLsbD_or, getLsbD_bitMask b i hi]
    by_cases h : i = b <;> simp [h]

/-- Settles O29: `PINW` performs one record, whose write is that of its bit. -/
theorem pinwWritesOneSwitch : Obligations.PinwWritesOneSwitch :=
  fun s b v hctx hpin hb => ⟨_, exec_pinw hctx hpin hb v, rfl, fun _ hi => getLsbD_writeLatch_pin s.latch b v hi⟩

/-- Settles O30: each read answers its register in the contexts that may issue it. -/
theorem readsAnswerTheRegister : Obligations.ReadsAnswerTheRegister :=
  ⟨rfl, rfl, fun _ hctx => State.issuedBy_mem (by simpa using hctx) _,
    fun _ hctx => State.issuedBy_mem (by simpa using hctx) _⟩

end Sys2Proof.Machine

namespace Sys2Proof.Machine

/-! ### `ADV.m` (41_phase_sequencer R121 to R126) -/

/-- Settles O10: the table entries of the nine indices, evaluated. -/
theorem halfStepSequenceOfThisHardware : Obligations.HalfStepSequenceOfThisHardware := by
  unfold Obligations.HalfStepSequenceOfThisHardware
  decide

/-- Inside a running `TICK`, the `ADV.m` of the built mode drives its entry, which is legal (R15), and answers (R121). -/
theorem exec_ofMode_running {s : State} (hctx : s.ctx = .inside .tick) (hrun : s.run = .running)
    (hok : configOk s.cfg = true) :
    exec (Instr.ofMode s.cfg.mode) s = .next ((s.drive (selected s.cfg s.cfg.mode s.step)).answer
      (.adv (s.step + sign s.rot) (selected s.cfg s.cfg.mode s.step))) := by
  rw [exec_ofMode, State.advanceAs_eq_next]
  exact ⟨hctx, hrun, rfl, s.advance_legal _ (selected_legal hok s.step)⟩

/-- Settles O32: each of the three is the `ADV.m` of its mode, and its frame is that of the shared `APPLY`. -/
theorem advanceAppliesTheEntryOfTheOldIndex : Obligations.AdvanceAppliesTheEntryOfTheOldIndex := by
  refine ⟨rfl, rfl, rfl, ?_⟩
  intro s i m len hmem hctx hrun hmode hok p hp
  obtain ⟨rfl, rfl⟩ : i = Instr.ofMode m ∧ len = tableLen m := by
    simp only [List.mem_cons, Prod.mk.injEq, List.not_mem_nil, or_false] at hmem
    obtain ⟨rfl, rfl, rfl⟩ | ⟨rfl, rfl, rfl⟩ | ⟨rfl, rfl, rfl⟩ := hmem <;> exact ⟨rfl, rfl⟩
  subst hmode
  obtain rfl : p = selected s.cfg s.cfg.mode s.step := hp
  rw [exec_ofMode_running hctx hrun hok]
  constructor
  · intro hsame
    rw [s.drive_same _ hsame]
    rfl
  · intro hdiffers
    rw [s.drive_differs _ hdiffers]
    rfl

/-! ### Chained calls of `ADV.m` (41_phase_sequencer R125) -/

@[simp] theorem State.takeReturned_answer_adv (s : State) (n : Int) (p : Pattern) :
    (s.answer (.adv n p)).takeReturned = { s with ret := .adv n p, step := n } := rfl

/-- The state after one call of the built mode's `ADV.m`, given the index that the call returned. -/
def State.advanced (s : State) : State :=
  (((s.issueAs (.inside .tick)).drive (selected s.cfg s.cfg.mode s.step)).answer
    (.adv (s.step + sign s.rot) (selected s.cfg s.cfg.mode s.step))).takeReturned

section
variable (s : State)

@[simp] theorem State.advanced_cfg : s.advanced.cfg = s.cfg := by simp [advanced]
@[simp] theorem State.advanced_step : s.advanced.step = s.step + sign s.rot := by simp [advanced]
@[simp] theorem State.advanced_rot : s.advanced.rot = s.rot := by simp [advanced]
@[simp] theorem State.advanced_run : s.advanced.run = s.run := by simp [advanced]
@[simp] theorem State.advanced_latch : s.advanced.latch = selected s.cfg s.cfg.mode s.step := by simp [advanced]
end

/-- Every one of `k` chained calls answers, so the chain is the single call iterated. -/
theorem advances_eq_iterate (k : Nat) {s : State} (hok : configOk s.cfg = true) (hrun : s.run = .running) :
    advances s.cfg.mode k s = .next (State.advanced^[k] s) := by
  induction k generalizing s with
  | zero => rfl
  | succ k ih =>
    have hcall := exec_ofMode_running (s := s.issueAs (.inside .tick)) (by simp) (by simpa using hrun) (by simpa using hok)
    simp only [State.issueAs_cfg, State.issueAs_step, State.issueAs_rot] at hcall
    have hrest : advances s.cfg.mode k s.advanced = .next (State.advanced^[k] s.advanced) := by
      simpa using ih (s := s.advanced) (by simpa using hok) (by simpa using hrun)
    rw [advances, hcall, andThen_next, Function.iterate_succ_apply]
    exact hrest

/-- Chained calls keep the configuration and the motion, and each adds the sign of the rotation to the index. -/
theorem State.iterate_advanced (s : State) (k : Nat) :
    (advanced^[k] s).cfg = s.cfg ∧ (advanced^[k] s).rot = s.rot ∧ (advanced^[k] s).run = s.run ∧
      (advanced^[k] s).step = s.step + k * sign s.rot := by
  induction k with
  | zero => simp
  | succ k ih =>
    obtain ⟨hcfg, hrot, hrun, hstep⟩ := ih
    rw [Function.iterate_succ_apply']
    refine ⟨by simpa using hcfg, by simpa using hrot, by simpa using hrun, ?_⟩
    rw [advanced_step, hstep, hrot]
    push_cast
    ring

/-- The last of `k + 1` chained calls applies the entry of the index that the `k` before it returned. -/
theorem State.iterate_advanced_latch (s : State) (k : Nat) :
    (advanced^[k + 1] s).latch = selected s.cfg s.cfg.mode (s.step + k * sign s.rot) := by
  obtain ⟨hcfg, -, -, hstep⟩ := s.iterate_advanced k
  rw [Function.iterate_succ_apply', advanced_latch, hcfg, hstep]

/-- Settles O33: the chain is the single call iterated, whose index and latch are known after every number of calls. -/
theorem chainedAdvancesCountTheirCalls : Obligations.ChainedAdvancesCountTheirCalls := by
  intro k s hok hrun
  obtain ⟨-, hrot, hrunning, hstep⟩ := s.iterate_advanced k
  refine ⟨_, advances_eq_iterate k hok hrun, hstep, hrot, hrunning, fun hpos => ?_⟩
  obtain ⟨j, rfl⟩ := Nat.exists_eq_add_one.mpr hpos
  rw [s.iterate_advanced_latch j]
  push_cast
  rw [add_sub_cancel_right]

end Sys2Proof.Machine

namespace Sys2Proof.Machine

/-! ### A `TICK` (42_motion R140, R143) -/

section
variable (s : State)

@[simp] theorem State.ticked_trace : s.ticked.trace = (s.drive (selected s.cfg s.cfg.mode s.step)).trace := by
  simp [ticked]
@[simp] theorem State.ticked_ret : s.ticked.ret = s.ret := by simp [ticked]
@[simp] theorem State.ticked_calls : s.ticked.calls = s.calls := by simp [ticked]
end

theorem exec_tick_stopped {s : State} (hctx : s.ctx = .timer) (hrun : s.run = .stopped) :
    exec .tick s = .next s.leaveInterrupt :=
  (execTick_eq_next s _).mpr ⟨hctx, .inl ⟨hrun, rfl⟩⟩

/-- The entries of the built mode's table are legal (R15), so a running `TICK` answers. -/
theorem exec_tick_running {s : State} (hctx : s.ctx = .timer) (hrun : s.run = .running) (hok : configOk s.cfg = true) :
    exec .tick s = .next s.ticked.stopCheck.leaveInterrupt :=
  (execTick_eq_next s _).mpr ⟨hctx, .inr ⟨hrun, selected_legal hok s.step, rfl⟩⟩

/-- Settles O36: the handler returns at once. -/
theorem tickWhileStoppedIsIgnored : Obligations.TickWhileStoppedIsIgnored := fun _ => exec_tick_stopped

/-- Settles O37: each of the two is one write of `RUN` in the context that may issue it. -/
theorem stopAndResumeWriteRun : Obligations.StopAndResumeWriteRun :=
  ⟨fun _ hctx => State.issuedBy_mem (List.mem_singleton.mpr hctx) _,
    fun _ hctx => State.issuedBy_mem (List.mem_singleton.mpr hctx) _⟩

theorem State.ticked_step_of_inRegister {s : State} (h : inRegister s.cfg.stepWidth (s.step + sign s.rot) = true) :
    s.ticked.step = s.step + sign s.rot := by
  rw [ticked, storeStep_inRegister _ (by simpa using h)]

/-- Where the register holds the absolute value of the new index too, that is what is classified (R162). -/
theorem State.ticked_milestone {s : State} (hlower : -(2 ^ (s.cfg.stepWidth - 1) : Int) < s.step + sign s.rot)
    (hupper : s.step + sign s.rot < (2 ^ (s.cfg.stepWidth - 1) : Int)) :
    s.ticked.milestone = classify s.cfg |s.step + sign s.rot| := by
  have hstep := State.ticked_step_of_inRegister ((inRegister_iff _ _).mpr ⟨hlower.le, hupper⟩)
  rw [milestone, magnitude_eq _ (by rw [hstep, ticked_cfg]; exact hlower.ne'), hstep, ticked_cfg]

/-- Settles O34: the fields of the driven and stored state after its stop check. -/
theorem tickAppliesStoresAndChecks : Obligations.TickAppliesStoresAndChecks := by
  rintro s _ p hctx hrun hok rfl hp hlower hupper
  obtain rfl : p = selected s.cfg s.cfg.mode s.step := hp
  have hstep := State.ticked_step_of_inRegister ((inRegister_iff _ _).mpr ⟨hlower.le, hupper⟩)
  have hmilestone := State.ticked_milestone hlower hupper
  refine ⟨rfl, _, exec_tick_running hctx hrun hok, ?_, ?_, ?_, ?_, ?_, ?_, ?_, ?_, ?_⟩
  · simp
  · simpa using hstep
  · simp [hmilestone, hrun]
  · simpa using s.drive_trace _
  all_goals simp

/-! ### Who writes `STEP`, and how often a `TICK` drives (42_motion R142) -/

@[simp] theorem State.writePorts_step (s : State) (write : Pattern → WriteRec) (mask : Pattern) :
    (s.writePorts write mask).step = s.step := by rw [writePorts, performAll_eq]

/-- No operation but `TICK` writes `STEP` (R20, R142). -/
theorem exec_step_of_ne_tick {s t : State} {i : Instr} (hi : i ≠ .tick) (h : exec i s = .next t) :
    t.step = s.step := by
  cases i with
  | tick => exact absurd rfl hi
  | advWave | advFull | advHalf =>
    obtain ⟨-, -, -, hadv⟩ := (s.advanceAs_eq_next _ t).mp h
    obtain ⟨-, rfl⟩ := (s.advance_eq_next _ t).mp hadv
    simp
  | apply | brake =>
    obtain ⟨-, hdrive⟩ := (s.issuedBy_eq_next _ _ t).mp h
    obtain ⟨-, rfl, -⟩ := State.eq_drive_of_driveAllowed hdrive
    simp
  | offw | onw | dt | stop | resume | classify | rdstep | rdlatch =>
    obtain ⟨-, ⟨⟩⟩ := (s.issuedBy_eq_next _ _ t).mp h
    simp
  | pinw b v =>
    obtain ⟨-, hpin⟩ := (s.issuedBy_eq_next _ _ t).mp h
    split at hpin
    · cases hpin
      simp
    · cases hpin
  | poll =>
    obtain ⟨-, ⟨-, rfl⟩ | ⟨-, rfl⟩⟩ := (execPoll_eq_next s t).mp h
    · rfl
    · simp
  | actNone | actStop | actRev =>
    obtain ⟨-, -, rfl⟩ := (s.actAs_eq_next _ t).mp h
    simp
  | actHome =>
    obtain ⟨-, -, rfl⟩ := (s.actAs_eq_next _ t).mp ((execActHome_eq_next s t).mp h).2
    simp

theorem count_gap_map_eq_zero {α : Type} {f : α → WriteRec} (hf : ∀ x, f x ≠ .gap) (xs : List α) :
    (xs.map f).count .gap = 0 := by
  simp [List.count_eq_zero, hf]

/-- The plan of one `APPLY` has one gap, between its off-writes and its on-writes (R110). -/
theorem State.count_gap_plan (s : State) (p : Pattern) : (s.plan p).count .gap = 1 := by
  have hoff : ∀ k, (offWrites s.cfg k p).count .gap = 0 := fun k => by
    unfold offWrites
    split <;> exact count_gap_map_eq_zero nofun _
  have hon : ∀ k, (onWrites s.cfg k p).count .gap = 0 := fun k => by
    unfold onWrites
    split <;> exact count_gap_map_eq_zero nofun _
  rw [plan, switchPlan, List.count_append, List.count_cons_self, hoff, hon]

theorem State.count_gap_drive_le (s : State) (p : Pattern) :
    (s.drive p).trace.count .gap ≤ s.trace.count .gap + 1 := by
  rw [drive_trace]
  split
  · omega
  · rw [List.count_append, count_gap_plan]

/-- Settles O38: of the operations only `TICK` stores `STEP`, and it makes the one `APPLY` of its `ADV.m`. -/
theorem onlyTickMovesStepByOne : Obligations.OnlyTickMovesStepByOne := by
  intro i s t h
  refine ⟨fun hi => exec_step_of_ne_tick hi h, ?_, ?_, ?_⟩
  all_goals
    rintro rfl
    obtain ⟨-, ⟨hrun, rfl⟩ | ⟨hrun, -, rfl⟩⟩ := (execTick_eq_next s t).mp h
  · exact fun _ => rfl
  · simp [hrun]
  · simp [hrun]
  · exact fun _ hfits => by simpa using State.ticked_step_of_inRegister hfits
  · simp
  · simpa using s.count_gap_drive_le _

/-! ### The two agents' turns as functions of the state (42_motion R148) -/

/-- The state after the timer's `TICK` in a well-formed configuration. -/
def State.afterTick (s : State) : State :=
  if s.run = .stopped then (s.issueAs .timer).leaveInterrupt else (s.issueAs .timer).ticked.stopCheck.leaveInterrupt

/-- The state after the foreground's `POLL`. -/
def State.afterPoll (s : State) : State :=
  if s.run = .running then s.issueAs .foreground else (s.issueAs .foreground).runAction s.milestone

/-- The state after a turn of both agents. -/
def State.afterTurn (s : State) : State := s.afterTick.afterPoll

theorem State.afterTick_stopped {s : State} (hrun : s.run = .stopped) :
    s.afterTick = (s.issueAs .timer).leaveInterrupt := if_pos hrun

theorem State.afterTick_running {s : State} (hrun : s.run = .running) :
    s.afterTick = (s.issueAs .timer).ticked.stopCheck.leaveInterrupt := if_neg (by simp [hrun])

@[simp] theorem State.afterTick_cfg (s : State) : s.afterTick.cfg = s.cfg := by unfold afterTick; split <;> simp
@[simp] theorem State.afterTick_rot (s : State) : s.afterTick.rot = s.rot := by unfold afterTick; split <;> simp

theorem State.afterTick_latch {s : State} (hrun : s.run = .running) :
    s.afterTick.latch = selected s.cfg s.cfg.mode s.step := by simp [afterTick_running hrun]

@[simp] theorem State.issueAs_milestone (s : State) (c : Ctx) : (s.issueAs c).milestone = s.milestone :=
  State.milestone_congr (s.issueAs_cfg c) (s.issueAs_step c)

section
variable (s : State)

@[simp] theorem State.afterPoll_cfg : s.afterPoll.cfg = s.cfg := by unfold afterPoll; split <;> simp
@[simp] theorem State.afterPoll_step : s.afterPoll.step = s.step := by unfold afterPoll; split <;> simp
@[simp] theorem State.afterPoll_latch : s.afterPoll.latch = s.latch := by unfold afterPoll; split <;> simp

theorem State.afterPoll_rot :
    s.afterPoll.rot = if s.run = .stopped ∧ s.milestone = .reverseAndReport then opposite s.rot else s.rot := by
  unfold afterPoll
  cases hrun : s.run <;> simp

theorem State.afterPoll_run :
    s.afterPoll.run = if s.run = .stopped ∧ s.milestone = .none then .stopped else .running := by
  unfold afterPoll
  cases hrun : s.run <;> simp [hrun]

@[simp] theorem State.afterTurn_cfg : s.afterTurn.cfg = s.cfg := by simp [afterTurn]
end

theorem exec_tick_issueAs {s : State} (hok : configOk s.cfg = true) :
    exec .tick (s.issueAs .timer) = .next s.afterTick := by
  cases hrun : s.run with
  | stopped => rw [State.afterTick_stopped hrun, exec_tick_stopped (s.issueAs_ctx _) (by simpa using hrun)]
  | running =>
    rw [State.afterTick_running hrun, exec_tick_running (s.issueAs_ctx _) (by simpa using hrun) (by simpa using hok)]

theorem exec_poll_issueAs (s : State) : exec .poll (s.issueAs .foreground) = .next s.afterPoll := by
  refine (execPoll_eq_next _ _).mpr ⟨s.issueAs_ctx _, ?_⟩
  cases hrun : s.run <;> simp [State.afterPoll, hrun]

/-- Every one of `k` ticks answers, so they are the single tick iterated. -/
theorem ticks_eq_iterate (k : Nat) {s : State} (hok : configOk s.cfg = true) :
    ticks k s = .next (State.afterTick^[k] s) := by
  induction k generalizing s with
  | zero => rfl
  | succ k ih => rw [ticks, exec_tick_issueAs hok, andThen_next, ih (by simpa using hok), Function.iterate_succ_apply]

/-- Every one of `k` turns answers, so they are the single turn iterated. -/
theorem turns_eq_iterate (k : Nat) {s : State} (hok : configOk s.cfg = true) :
    turns k s = .next (State.afterTurn^[k] s) := by
  induction k generalizing s with
  | zero => rfl
  | succ k ih =>
    rw [turns, exec_tick_issueAs hok, andThen_next, exec_poll_issueAs, andThen_next, ih (by simpa using hok),
      Function.iterate_succ_apply, State.afterTurn]

/-- Once stopped, ticks change neither `STEP` nor `RUN` (R143). -/
theorem State.iterate_afterTick_stopped (k : Nat) {s : State} (hrun : s.run = .stopped) :
    (afterTick^[k] s).step = s.step ∧ (afterTick^[k] s).run = .stopped := by
  induction k generalizing s with
  | zero => exact ⟨rfl, hrun⟩
  | succ k ih =>
    rw [Function.iterate_succ_apply, afterTick_stopped hrun]
    simpa using ih (s := (s.issueAs .timer).leaveInterrupt) (by simpa using hrun)

/-! ### A block on its way to a limit (42_motion R141, R150) -/

theorem sign_mul_sign (r : Rotation) : sign r * sign r = 1 := by cases r <;> rfl

theorem abs_sign_mul (r : Rotation) (n : Int) : |sign r * n| = |n| := by cases r <;> simp [sign]

theorem State.limit_congr {s t : State} (hcfg : s.cfg = t.cfg) : s.limit = t.limit := by rw [limit, limit, hcfg]

/-- `STEP` counted along the rotation. -/
def State.ahead (s : State) : Int := sign s.rot * s.step

/-- The position after `k` increments is `k` further along the rotation. -/
theorem State.sign_mul_step_add (s : State) (k : Int) : sign s.rot * (s.step + k * sign s.rot) = s.ahead + k := by
  rw [ahead]
  linear_combination k * sign_mul_sign s.rot

theorem State.abs_step_add (s : State) (k : Int) : |s.step + k * sign s.rot| = |s.ahead + k| := by
  rw [← s.sign_mul_step_add, abs_sign_mul]

/-- None of the next `k` positions is a milestone. -/
def State.ClearFor (s : State) (k : Nat) : Prop :=
  ∀ j : Nat, 0 < j → j ≤ k → classify s.cfg |s.step + j * sign s.rot| = .none

theorem State.ClearFor.mono {s : State} {j k : Nat} (h : s.ClearFor k) (hj : j ≤ k) : s.ClearFor j :=
  fun i hpos hi => h i hpos (hi.trans hj)

/-- The block runs in a well-formed configuration, between the limits, with one of them ahead of it. -/
structure State.Moving (s : State) : Prop where
  config : configOk s.cfg = true
  running : s.run = .running
  lower : -s.limit ≤ s.ahead
  upper : s.ahead < s.limit

theorem State.moving_at_home {s : State} (hok : configOk s.cfg = true) (hrun : s.run = .running) (hhome : s.step = 0) :
    s.Moving := by
  have hlimit := State.limit_pos hok
  have hahead : s.ahead = 0 := by rw [ahead, hhome, mul_zero]
  exact ⟨hok, hrun, by omega, by omega⟩

/-- A running block of the invariant is on its way: at a limit the rotation points inward. -/
theorem State.Inv.moving {s : State} (hs : s.Inv) (hrun : s.run = .running) : s.Moving := by
  have hlimit := State.limit_pos hs.config
  have hinward := fun hat => hs.inward hat hrun
  have hlower := hs.lower
  have hupper := hs.upper
  refine ⟨hs.config, hrun, ?_, ?_⟩
  all_goals
    unfold ahead
    cases hrot : s.rot <;> simp only [hrot, sign] at hinward ⊢ <;> omega

theorem classify_eq_reverse_iff {c : Config} (hunit : 1 ≤ c.unit) (a : Int) :
    classify c a = .reverseAndReport ↔ a = 10 * (c.unit : Int) := by
  constructor
  · unfold classify
    split
    · split <;> simp
    · split <;> simp_all
  · rintro rfl
    exact classify_limit hunit

namespace State.Moving

variable {s : State} (h : s.Moving)
include h

theorem abs_step_add_sign_le : |s.step + sign s.rot| ≤ s.limit := by
  have habs := s.abs_step_add 1
  rw [one_mul] at habs
  rw [habs, abs_le]
  have hlower := h.lower
  have hupper := h.upper
  omega

theorem abs_step_add_sign_eq_limit_iff : |s.step + sign s.rot| = s.limit ↔ s.ahead + 1 = s.limit := by
  have habs := s.abs_step_add 1
  rw [one_mul] at habs
  have hlower := h.lower
  have hlimit := State.limit_pos h.config
  rw [habs, abs_eq hlimit.le]
  omega

/-- The register holds the next position and its absolute value, since it holds the limits (R15). -/
theorem step_add_sign_in_register : -(2 ^ (s.cfg.stepWidth - 1) : Int) < s.step + sign s.rot ∧
    s.step + sign s.rot < (2 ^ (s.cfg.stepWidth - 1) : Int) := by
  obtain ⟨hlower, hupper⟩ := abs_le.mp h.abs_step_add_sign_le
  have hfits := (configOk_unit h.config).2
  rw [limit] at hlower hupper
  constructor <;> omega

theorem afterTick_step : s.afterTick.step = s.step + sign s.rot := by
  obtain ⟨hlower, hupper⟩ := h.step_add_sign_in_register
  have hstep := ticked_step_of_inRegister (s := s.issueAs .timer)
    (by simpa [inRegister_iff] using ⟨hlower.le, hupper⟩)
  simpa [afterTick_running h.running] using hstep

theorem afterTick_milestone : s.afterTick.milestone = classify s.cfg |s.step + sign s.rot| := by
  obtain ⟨hlower, hupper⟩ := h.step_add_sign_in_register
  have hmilestone := ticked_milestone (s := s.issueAs .timer) (by simpa using hlower) (by simpa using hupper)
  simpa [afterTick_running h.running] using hmilestone

/-- A tick stops the block exactly at a milestone (R140). -/
theorem afterTick_run_eq_stopped_iff : s.afterTick.run = .stopped ↔ s.afterTick.milestone ≠ .none := by
  rw [afterTick_running h.running, leaveInterrupt_milestone, stopCheck_milestone]
  exact stopCheck_run_eq_stopped_iff (by simp [h.running])

/-- A tick that reaches no milestone has not reached the limit, so the block is still on its way. -/
theorem afterTick (hclear : classify s.cfg |s.step + sign s.rot| = .none) : s.afterTick.Moving := by
  have hahead : s.afterTick.ahead = s.ahead + 1 := by
    rw [ahead, afterTick_rot, h.afterTick_step, mul_add, sign_mul_sign, ahead]
  have hlimit : s.afterTick.limit = s.limit := limit_congr s.afterTick_cfg
  have hnotLimit : s.ahead + 1 ≠ s.limit := fun hat =>
    ((classify_eq_none _ _).mp hclear).2.2 (h.abs_step_add_sign_eq_limit_iff.mpr hat)
  have hlower := h.lower
  have hupper := h.upper
  exact {
    config := by rw [afterTick_cfg, h.config]
    running := by
      cases hrun : s.afterTick.run with
      | running => rfl
      | stopped => exact absurd (h.afterTick_milestone.trans hclear) (h.afterTick_run_eq_stopped_iff.mp hrun)
    lower := by rw [hlimit, hahead]; omega
    upper := by rw [hlimit, hahead]; omega }

/-- Ticks that reach no milestone leave the block on its way, one position further each. -/
theorem iterate_afterTick {k : Nat} (hclear : s.ClearFor k) :
    (State.afterTick^[k] s).Moving ∧ (State.afterTick^[k] s).cfg = s.cfg ∧ (State.afterTick^[k] s).rot = s.rot ∧
      (State.afterTick^[k] s).step = s.step + k * sign s.rot := by
  induction k with
  | zero => exact ⟨h, rfl, rfl, by simp⟩
  | succ k ih =>
    obtain ⟨hmoving, hcfg, hrot, hstep⟩ := ih (hclear.mono k.le_succ)
    have hnext := hmoving.afterTick_step
    have hnone := hclear (k + 1) k.succ_pos le_rfl
    rw [Nat.cast_add_one, add_one_mul, ← add_assoc] at hnone
    rw [hstep, hrot] at hnext
    rw [Function.iterate_succ_apply', Nat.cast_add_one, add_one_mul, ← add_assoc]
    refine ⟨hmoving.afterTick ?_, by rw [afterTick_cfg, hcfg], by rw [afterTick_rot, hrot], hnext⟩
    rwa [hstep, hrot, hcfg]

/-- A tick after others that reached no milestone stops the block exactly at one (R141). -/
theorem iterate_afterTick_succ {k : Nat} (hclear : s.ClearFor k) :
    (State.afterTick^[k + 1] s).rot = s.rot ∧
      (State.afterTick^[k + 1] s).step = s.step + (k + 1 : Nat) * sign s.rot ∧
      (State.afterTick^[k + 1] s).milestone = classify s.cfg |s.step + (k + 1 : Nat) * sign s.rot| ∧
      ((State.afterTick^[k + 1] s).run = .stopped ↔ (State.afterTick^[k + 1] s).milestone ≠ .none) := by
  obtain ⟨hmoving, hcfg, hrot, hstep⟩ := h.iterate_afterTick hclear
  rw [Function.iterate_succ_apply', afterTick_rot, hmoving.afterTick_run_eq_stopped_iff, hmoving.afterTick_milestone,
    hmoving.afterTick_step, hstep, hrot, hcfg, Nat.cast_add_one, add_one_mul, ← add_assoc]
  exact ⟨rfl, rfl, rfl, Iff.rfl⟩

/-- The limit is a milestone ahead, so some number of ticks reaches one. -/
theorem exists_milestone_ahead : ∃ k : Nat, classify s.cfg |s.step + (k + 1 : Nat) * sign s.rot| ≠ .none := by
  have hupper := h.upper
  obtain ⟨k, hk⟩ := Int.eq_ofNat_of_zero_le (show 0 ≤ s.limit - s.ahead - 1 by omega)
  have hlimit : s.ahead + (k + 1 : Nat) = 10 * (s.cfg.unit : Int) := by
    rw [limit] at hk
    omega
  refine ⟨k, ?_⟩
  rw [s.abs_step_add, hlimit, abs_of_nonneg (by omega), classify_limit (configOk_unit h.config).1]
  decide

/-- Ahead there is a first milestone (R141). -/
theorem exists_first_milestone :
    ∃ k : Nat, s.ClearFor k ∧ classify s.cfg |s.step + (k + 1 : Nat) * sign s.rot| ≠ .none := by
  obtain ⟨k, hmilestone, hfirst⟩ := Nat.findX h.exists_milestone_ahead
  refine ⟨k, fun j hpos hj => ?_, hmilestone⟩
  obtain ⟨i, rfl⟩ := Nat.exists_eq_add_one.mpr hpos
  exact not_not.mp (hfirst i (by omega))

end State.Moving

/-- Settles O41: a running block is on its way, and the action of the milestone where it stopped resumes it. -/
theorem everyStateHasANextOperation : Obligations.EveryStateHasANextOperation := by
  intro s hs
  refine ⟨fun hrun => ⟨_, exec_tick_issueAs hs.config, (hs.moving hrun).afterTick_step⟩,
    fun hrun => ⟨_, exec_poll_issueAs s, ?_⟩⟩
  rw [s.afterPoll_run, if_neg fun hstuck => hs.stoppedAtMilestone hrun hstuck.2]

/-- Settles O39: the halt is the first milestone ahead, which exists since the limit is one. -/
theorem tickingHaltsExactlyAtAMilestone : Obligations.TickingHaltsExactlyAtAMilestone := by
  intro s hs hrun
  have hmoving := hs.moving hrun
  obtain ⟨k, hclear, hfirst⟩ := hmoving.exists_first_milestone
  obtain ⟨-, hstep, hmilestone, hhalt⟩ := hmoving.iterate_afterTick_succ hclear
  have hstopped := hhalt.mpr (by rwa [hmilestone])
  refine ⟨k + 1, _, k.succ_pos, ticks_eq_iterate _ hs.config, hstopped, hstep, by rwa [hstep], ?_, ?_⟩
  · intro j hpos hj
    obtain ⟨hon, -, -, hat⟩ := hmoving.iterate_afterTick (hclear.mono (Nat.le_of_lt_succ hj))
    exact ⟨hclear j hpos (Nat.le_of_lt_succ hj), _, ticks_eq_iterate j hs.config, hon.running, hat⟩
  · intro j
    obtain ⟨hsame, hstays⟩ := State.iterate_afterTick_stopped j hstopped
    rw [← Function.iterate_add_apply, Nat.add_comm] at hsame hstays
    exact ⟨_, ticks_eq_iterate _ hs.config, hsame, hstays⟩

/-- At home the position after `j` increments is `j` away, in either direction. -/
theorem State.abs_step_add_of_home {s : State} (hhome : s.step = 0) (j : Nat) : |s.step + j * sign s.rot| = j := by
  rw [s.abs_step_add, ahead, hhome, mul_zero, zero_add, Nat.abs_cast]

/-- Settles O40: between home and one unit there is no milestone, in either direction. -/
theorem firstHaltFromHomeIsOneUnitAway : Obligations.FirstHaltFromHomeIsOneUnitAway := by
  intro s k hok hhome hrun hk
  have hunit := (configOk_unit hok).1
  refine ⟨_, ticks_eq_iterate k hok, ?_⟩
  cases k with
  | zero =>
    rw [Function.iterate_zero_apply, Nat.cast_zero, zero_mul, hrun]
    exact ⟨hhome, rfl, by simp; omega, by omega⟩
  | succ k =>
    have hclear : s.ClearFor k := fun j hpos hj => by
      rw [State.abs_step_add_of_home hhome, classify_eq_none]
      omega
    obtain ⟨hrot, hstep, hmilestone, hhalt⟩ := (State.moving_at_home hok hrun hhome).iterate_afterTick_succ hclear
    rw [State.abs_step_add_of_home hhome] at hmilestone
    rw [hhome, zero_add] at hstep
    refine ⟨hstep, hrot, ?_, fun hat => ?_⟩
    · rw [hhalt, hmilestone, ne_eq, classify_eq_none]
      omega
    · rw [hmilestone, hat, classify, if_neg (by omega), if_pos rfl]

/-! ### Turns from limit to limit (42_motion R150, R151) -/

namespace State.Moving

variable {s : State} (h : s.Moving)
include h

theorem afterTurn_step : s.afterTurn.step = s.step + sign s.rot := by
  rw [State.afterTurn, afterPoll_step, h.afterTick_step]

theorem afterTurn_latch : s.afterTurn.latch = selected s.cfg s.cfg.mode s.step := by
  rw [State.afterTurn, afterPoll_latch, afterTick_latch h.running]

/-- A turn resumes wherever its tick stopped, which is at a milestone. -/
theorem afterTurn_run : s.afterTurn.run = .running := by
  rw [State.afterTurn, afterPoll_run]
  exact if_neg fun hstuck => h.afterTick_run_eq_stopped_iff.mp hstuck.1 hstuck.2

/-- A turn reverses exactly at the limit. -/
theorem afterTurn_rot : s.afterTurn.rot = if s.ahead + 1 = s.limit then opposite s.rot else s.rot := by
  have hreverse : classify s.cfg |s.step + sign s.rot| = .reverseAndReport ↔ s.ahead + 1 = s.limit :=
    (classify_eq_reverse_iff (configOk_unit h.config).1 _).trans h.abs_step_add_sign_eq_limit_iff
  have hstops : s.afterTick.run = .stopped ∧ s.afterTick.milestone = .reverseAndReport ↔ s.ahead + 1 = s.limit := by
    rw [h.afterTick_run_eq_stopped_iff, h.afterTick_milestone, ← hreverse]
    exact and_iff_right_of_imp fun hat => by simp [hat]
  simp only [State.afterTurn, afterPoll_rot, hstops, afterTick_rot]

/-- After a turn the limit is ahead: the same one, or from the limit the other one. -/
theorem afterTurn : s.afterTurn.Moving := by
  have hahead : s.afterTurn.ahead = if s.ahead + 1 = s.limit then -(s.ahead + 1) else s.ahead + 1 := by
    have hnext : sign s.rot * (s.step + sign s.rot) = s.ahead + 1 := by rw [mul_add, sign_mul_sign, ahead]
    rw [ahead, h.afterTurn_step, h.afterTurn_rot]
    split
    · rw [sign_opposite, neg_mul, hnext]
    · exact hnext
  have hlimit : s.afterTurn.limit = s.limit := limit_congr s.afterTurn_cfg
  have hlower := h.lower
  have hupper := h.upper
  have hpos := State.limit_pos h.config
  exact {
    config := by rw [afterTurn_cfg, h.config]
    running := h.afterTurn_run
    lower := by rw [hlimit, hahead]; split <;> omega
    upper := by rw [hlimit, hahead]; split <;> omega }

/-- Turns up to the limit go straight; the one that reaches it reverses (R150). -/
theorem iterate_afterTurn {k : Nat} (hk : s.ahead + k ≤ s.limit) :
    (State.afterTurn^[k] s).Moving ∧ (State.afterTurn^[k] s).cfg = s.cfg ∧
      (State.afterTurn^[k] s).step = s.step + k * sign s.rot ∧
      (State.afterTurn^[k] s).rot = if s.ahead + k = s.limit then opposite s.rot else s.rot := by
  induction k with
  | zero =>
    have hstart : s.ahead + (0 : Nat) ≠ s.limit := by simpa using h.upper.ne
    exact ⟨h, rfl, by simp, by rw [if_neg hstart, Function.iterate_zero_apply]⟩
  | succ k ih =>
    rw [Nat.cast_add_one, ← add_assoc] at hk
    obtain ⟨hmoving, hcfg, hstep, hrot⟩ := ih (by omega)
    rw [if_neg (by omega)] at hrot
    have hahead : (State.afterTurn^[k] s).ahead = s.ahead + k := by rw [ahead, hstep, hrot, sign_mul_step_add]
    rw [Function.iterate_succ_apply', Nat.cast_add_one, ← add_assoc]
    refine ⟨hmoving.afterTurn, by rw [afterTurn_cfg, hcfg], ?_, ?_⟩
    · rw [hmoving.afterTurn_step, hstep, hrot]
      ring
    · rw [hmoving.afterTurn_rot, hahead, limit_congr hcfg, hrot]

/-- The last of some turns before which the limit was not reached applies the entry of the position it leaves. -/
theorem iterate_afterTurn_succ_latch {k : Nat} (hk : s.ahead + k < s.limit) :
    (State.afterTurn^[k + 1] s).latch = selected s.cfg s.cfg.mode (s.step + k * sign s.rot) := by
  obtain ⟨hmoving, hcfg, hstep, -⟩ := h.iterate_afterTurn hk.le
  rw [Function.iterate_succ_apply', hmoving.afterTurn_latch, hcfg, hstep]

/-- Turns that end at the limit leave the block there, pointing back to the other one (R150). -/
theorem iterate_afterTurn_to_limit {k : Nat} (hk : s.ahead + k = s.limit) :
    (State.afterTurn^[k] s).Moving ∧ (State.afterTurn^[k] s).cfg = s.cfg ∧
      (State.afterTurn^[k] s).step = sign s.rot * s.limit ∧ (State.afterTurn^[k] s).rot = opposite s.rot := by
  obtain ⟨hmoving, hcfg, hstep, hrot⟩ := h.iterate_afterTurn hk.le
  refine ⟨hmoving, hcfg, ?_, by rw [hrot, if_pos hk]⟩
  rw [hstep, ← hk, ahead]
  linear_combination -s.step * sign_mul_sign s.rot

end State.Moving

section
variable {s : State} (hok : configOk s.cfg = true) (hhome : s.step = 0) (hrot : s.rot = .cw) (hrun : s.run = .running)
include hok hhome hrot hrun

/-- From home clockwise to the upper limit. -/
theorem iterate_afterTurn_ten_units : (State.afterTurn^[10 * s.cfg.unit] s).Moving ∧
    (State.afterTurn^[10 * s.cfg.unit] s).cfg = s.cfg ∧
    (State.afterTurn^[10 * s.cfg.unit] s).step = 10 * (s.cfg.unit : Int) ∧
    (State.afterTurn^[10 * s.cfg.unit] s).rot = .ccw := by
  have hlimit : s.ahead + (10 * s.cfg.unit : Nat) = s.limit := by
    rw [State.ahead, State.limit, hhome, mul_zero]
    omega
  simpa [hrot, sign, opposite, State.limit] using
    (State.moving_at_home hok hrun hhome).iterate_afterTurn_to_limit hlimit

/-- From home clockwise by the upper limit to the lower one. -/
theorem iterate_afterTurn_thirty_units : (State.afterTurn^[30 * s.cfg.unit] s).Moving ∧
    (State.afterTurn^[30 * s.cfg.unit] s).cfg = s.cfg ∧
    (State.afterTurn^[30 * s.cfg.unit] s).step = -(10 * (s.cfg.unit : Int)) ∧
    (State.afterTurn^[30 * s.cfg.unit] s).rot = .cw := by
  obtain ⟨hmoving, hcfg, hstep, hccw⟩ := iterate_afterTurn_ten_units hok hhome hrot hrun
  rw [show 30 * s.cfg.unit = 20 * s.cfg.unit + 10 * s.cfg.unit by ring, Function.iterate_add_apply]
  generalize State.afterTurn^[10 * s.cfg.unit] s = u at *
  have hlimit : u.ahead + (20 * s.cfg.unit : Nat) = u.limit := by
    rw [State.ahead, State.limit, hstep, hccw, hcfg, sign]
    omega
  simpa [hccw, hcfg, sign, opposite, State.limit] using hmoving.iterate_afterTurn_to_limit hlimit

/-- From home clockwise by both limits, back at home. -/
theorem iterate_afterTurn_forty_units : (State.afterTurn^[40 * s.cfg.unit] s).Moving ∧
    (State.afterTurn^[40 * s.cfg.unit] s).step = 0 ∧ (State.afterTurn^[40 * s.cfg.unit] s).rot = .cw ∧
    (State.afterTurn^[40 * s.cfg.unit] s).latch = selected s.cfg s.cfg.mode (-1) := by
  obtain ⟨hmoving, hcfg, hstep, hcw⟩ := iterate_afterTurn_thirty_units hok hhome hrot hrun
  obtain ⟨n, hn⟩ := Nat.exists_eq_add_one.mpr (show 0 < 10 * s.cfg.unit by have := (configOk_unit hok).1; omega)
  rw [show 40 * s.cfg.unit = (n + 1) + 30 * s.cfg.unit by omega, Function.iterate_add_apply]
  generalize State.afterTurn^[30 * s.cfg.unit] s = u at *
  have hbelow : u.ahead + (n + 1 : Nat) < u.limit := by
    rw [State.ahead, State.limit, hstep, hcw, hcfg, sign]
    omega
  have hlast : u.step + n * sign u.rot = -1 := by
    rw [hstep, hcw, sign]
    omega
  obtain ⟨hmoving', -, hhome', hrot'⟩ := hmoving.iterate_afterTurn hbelow.le
  refine ⟨hmoving', ?_, by rw [hrot', if_neg hbelow.ne, hcw], ?_⟩
  · rw [hhome', hstep, hcw, sign]
    omega
  · rw [hmoving.iterate_afterTurn_succ_latch (by push_cast at hbelow; omega), hlast, hcfg]

end

/-- Settles O42: a way to the upper limit, one across to the lower, and one home, each of turns that go straight. -/
theorem fortyUnitsOfTurnsReturnHome : Obligations.FortyUnitsOfTurnsReturnHome := by
  intro s hok hhome hrot hrun
  obtain ⟨hmoving₁, -, hstep₁, hrot₁⟩ := iterate_afterTurn_ten_units hok hhome hrot hrun
  obtain ⟨hmoving₂, -, hstep₂, hrot₂⟩ := iterate_afterTurn_thirty_units hok hhome hrot hrun
  obtain ⟨hmoving₃, hstep₃, hrot₃, hlatch⟩ := iterate_afterTurn_forty_units hok hhome hrot hrun
  exact ⟨⟨_, turns_eq_iterate _ hok, hstep₁, hrot₁, hmoving₁.running⟩,
    ⟨_, turns_eq_iterate _ hok, hstep₂, hrot₂, hmoving₂.running⟩,
    ⟨_, turns_eq_iterate _ hok, hstep₃, hrot₃, hmoving₃.running, hlatch⟩⟩

end Sys2Proof.Machine

namespace Sys2Proof.Machine

/-! ### The actions, one equation each (43_milestone_dispatcher R164 to R167) -/

section
variable (s : State)

theorem State.runAction_none : s.runAction .none = s := rfl

theorem State.runAction_stopAndReport :
    s.runAction .stopAndReport = { s with
      run := .running, calls := s.calls ++ [.report .stopAndReport s.rot s.magnitude, .dwell s.cfg.dwellMs] } :=
  s.runAction_eq .stopAndReport

theorem State.runAction_reverseAndReport :
    s.runAction .reverseAndReport = { s with
      run := .running, rot := opposite s.rot
      calls := s.calls ++ [.report .reverseAndReport (opposite s.rot) s.magnitude, .dwell s.cfg.dwellMs] } :=
  s.runAction_eq .reverseAndReport

theorem State.runAction_homeAndReport :
    s.runAction .homeAndReport = { s with
      run := .running, calls := s.calls ++ [.report .homeAndReport s.rot 0, .dwell s.cfg.dwellMs] } :=
  s.runAction_eq .homeAndReport
end

/-! ### `POLL` (43_milestone_dispatcher R163) -/

theorem exec_poll_running {s : State} (hctx : s.ctx = .foreground) (hrun : s.run = .running) :
    exec .poll s = .next s :=
  (execPoll_eq_next s _).mpr ⟨hctx, .inl ⟨hrun, rfl⟩⟩

theorem exec_poll_stopped {s : State} (hctx : s.ctx = .foreground) (hrun : s.run = .stopped) :
    exec .poll s = .next (s.runAction s.milestone) :=
  (execPoll_eq_next s _).mpr ⟨hctx, .inr ⟨hrun, rfl⟩⟩

/-- Settles O44: while `Stopped` a `POLL` is the action of its milestone, whose four equations are the four cases. -/
theorem pollActsOnlyWhileStopped : Obligations.PollActsOnlyWhileStopped := by
  intro s hctx
  refine ⟨exec_poll_running hctx, ?_, ?_, ?_, ?_⟩
  all_goals
    intro hrun hmilestone
    rw [exec_poll_stopped hctx hrun, hmilestone]
  · rw [s.runAction_none]
  · rw [s.runAction_stopAndReport]
  · rw [s.runAction_reverseAndReport]
  · rw [s.runAction_homeAndReport]

/-! ### `classify`, and the milestone of a position (43_milestone_dispatcher R160 to R162) -/

theorem classify_zero (c : Config) :
    classify c 0 = if c.homeVariant then .homeAndReport else .stopAndReport := if_pos rfl

theorem classify_unit {c : Config} (hunit : 1 ≤ c.unit) : classify c c.unit = .stopAndReport := by
  rw [classify, if_neg (by omega), if_pos rfl]

/-- Settles O11: the value at each of the three milestones and away from them, and these at `U = 200`. -/
theorem classifyMapsTheThreeMilestones : Obligations.ClassifyMapsTheThreeMilestones := by
  constructor
  · intro c a hunit
    refine ⟨?_, ?_, ?_, fun hzero hone hten => (classify_eq_none c a).mpr ⟨hzero, hone, hten⟩⟩
    all_goals rintro rfl
    · exact classify_zero c
    · exact classify_unit hunit
    · exact classify_limit hunit
  · intro c hc
    have hunit : 1 ≤ c.unit := by omega
    refine ⟨fun hhome => ?_, fun hhome => ?_, ?_, ?_, fun a ha => (classify_eq_none c a).mpr ?_⟩
    · simp [classify_zero, hhome]
    · simp [classify_zero, hhome]
    · simpa [hc] using classify_unit hunit
    · simpa [hc] using classify_limit hunit
    · simp only [List.mem_cons, List.not_mem_nil, or_false] at ha
      omega

/-- Where the register holds the absolute value of `STEP`, that is what is classified (R162). -/
theorem State.milestone_eq {s : State} (h : s.step ≠ -(2 ^ (s.cfg.stepWidth - 1) : Int)) :
    s.milestone = classify s.cfg |s.step| := by
  rw [milestone, s.magnitude_eq h]

/-- Settles O12: neither `STEP` nor its negation is the most negative value, and their absolute values are equal. -/
theorem milestoneIgnoresTheSignOfStep : Obligations.MilestoneIgnoresTheSignOfStep := by
  intro s hlower hupper
  have hneg : -s.step ≠ -(2 ^ (s.cfg.stepWidth - 1) : Int) := fun h => hupper.ne (neg_injective h)
  have hmilestone := State.milestone_eq hlower.ne'
  refine ⟨hmilestone, ?_⟩
  rw [State.milestone_eq (s := { s with step := -s.step }) hneg, hmilestone, abs_neg]

/-- Settles O43: `CLASSIFY` answers the milestone of the position. -/
theorem classifyAnswersTheAction : Obligations.ClassifyAnswersTheAction := by
  intro s hctx hstep
  have hexec : exec .classify s = .next (s.answer (.action s.milestone)) := State.issuedBy_mem (by simpa using hctx) _
  rw [hexec, State.milestone_eq hstep]
  rfl

/-- Where `classify` answers `StopAndReport` (R160). -/
theorem classify_eq_stop_iff {c : Config} (hunit : 1 ≤ c.unit) (a : Int) :
    classify c a = .stopAndReport ↔ a = c.unit ∨ (a = 0 ∧ c.homeVariant = false) := by
  by_cases hzero : a = 0
  · subst hzero
    have hne : (0 : Int) ≠ c.unit := by omega
    cases hhome : c.homeVariant <;> simp [classify_zero, hhome, hne]
  · by_cases hone : a = c.unit
    · simp [hone, classify_unit hunit]
    · have hnot : classify c a ≠ .stopAndReport := by
        rw [classify, if_neg hzero, if_neg hone]
        split <;> decide
      simp [hzero, hone, hnot]

/-! ### `ACT.a` (43_milestone_dispatcher R164 to R167) -/

/-- Inside a `POLL` while `Stopped`, each `ACT.a` answers, and so does `ACT.NONE` while `Running` (R224). -/
theorem State.actAs_answers {s : State} {a : Action} (hctx : s.ctx = .inside .poll)
    (hrun : a = .none ∨ s.run = .stopped) : s.actAs a = .next (s.runAction a) :=
  (s.actAs_eq_next a _).mpr ⟨hctx, hrun, rfl⟩

/-- Settles O45: the word and the selection, and the action's equation with the magnitude an absolute value. -/
theorem actStopReportsDwellsAndResumes : Obligations.ActStopReportsDwellsAndResumes := by
  refine ⟨by decide, fun c a hunit => classify_eq_stop_iff hunit a, fun s hctx hrun hstep => ?_⟩
  have hexec : exec .actStop s = .next (s.runAction .stopAndReport) := State.actAs_answers hctx (.inr hrun)
  rw [hexec, s.runAction_stopAndReport, s.magnitude_eq hstep]

theorem opposite_ne (r : Rotation) : opposite r ≠ r := by cases r <;> decide

/-- Settles O46: the action's equation; the new rotation is the other one, of the other sign. -/
theorem actRevTogglesTheRotation : Obligations.ActRevTogglesTheRotation := by
  intro s hctx hrun hstep
  have hexec : exec .actRev s = .next (s.runAction .reverseAndReport) := State.actAs_answers hctx (.inr hrun)
  rw [s.runAction_reverseAndReport, s.magnitude_eq hstep] at hexec
  exact ⟨_, hexec, opposite_ne s.rot, sign_opposite s.rot, rfl⟩

/-- Settles O47: the equations of the two actions, where `ACT.HOME` exists for the first. -/
theorem actHomeResumesAndActNoneDoesNothing : Obligations.ActHomeResumesAndActNoneDoesNothing := by
  refine ⟨fun s hctx hrun hhome => ?_, fun s hctx => State.actAs_answers hctx (.inl rfl)⟩
  rw [exec_actHome, if_pos hhome, State.actAs_answers hctx (.inr hrun), s.runAction_homeAndReport]

end Sys2Proof.Machine

namespace Sys2Proof.Machine

/-! ### The model's own tags on a state (notes/assumptions/3.md, 4.md) -/

/-- The state with another execution context and another answer: what a sub-step and its parent may differ in before
either acts. -/
def State.tagged (s : State) (c : Ctx) (r : Ret) : State := { s with ctx := c, ret := r }

section
variable (s : State) (c : Ctx) (r : Ret)

@[simp] theorem State.tagged_cfg : (s.tagged c r).cfg = s.cfg := rfl
@[simp] theorem State.tagged_step : (s.tagged c r).step = s.step := rfl
@[simp] theorem State.tagged_rot : (s.tagged c r).rot = s.rot := rfl
@[simp] theorem State.tagged_ctx : (s.tagged c r).ctx = c := rfl
@[simp] theorem State.tagged_milestone : (s.tagged c r).milestone = s.milestone := rfl

@[simp] theorem State.tagged_answer (r' : Ret) : (s.tagged c r).answer r' = s.tagged c r' := rfl
@[simp] theorem State.tagged_issueAs_inside (p : Parent) :
    (s.tagged c r).issueAs (.inside p) = s.tagged (.inside p) r := rfl

theorem State.tagged_self : s.tagged s.ctx s.ret = s := rfl
theorem State.issueAs_inside (p : Parent) : s.issueAs (.inside p) = s.tagged (.inside p) s.ret := rfl
theorem State.issueAs_inside_of_ctx {s : State} {p : Parent} (hctx : s.ctx = .inside p) : s.issueAs (.inside p) = s := by
  rw [issueAs_inside, ← hctx, tagged_self]

/-! The updates an operation makes of the registers commute with the tags: they neither read nor write them. -/

theorem State.tagged_drive (p : Pattern) : (s.tagged c r).drive p = (s.drive p).tagged c r := by
  by_cases h : s.latch = p
  · rw [s.drive_same p h, (s.tagged c r).drive_same p h]
  · rw [s.drive_differs p h, (s.tagged c r).drive_differs p h]
    rfl

theorem State.tagged_storeStep (n : Int) : (s.tagged c r).storeStep n = (s.storeStep n).tagged c r := by
  unfold storeStep
  rw [tagged_cfg]
  split <;> rfl

theorem State.tagged_runAction (a : Action) : (s.tagged c r).runAction a = (s.runAction a).tagged c r := by
  cases a <;> rfl

theorem State.tagged_performAll (rs : List WriteRec) :
    (s.tagged c r).performAll rs = (s.performAll rs).tagged c r := by
  rw [performAll_eq, performAll_eq]
  rfl

theorem State.runAction_eq_tagged (a : Action) : s.runAction a = (s.runAction a).tagged s.ctx s.ret := by
  rw [← tagged_runAction, tagged_self]
end

/-! ### A `POLL` by its sub-steps (44_operation_classes R172) -/

/-- Inside `TICK` and `POLL`, `CLASSIFY` answers the milestone of the position (R160, R162). -/
theorem exec_classify {s : State} (hctx : s.ctx ∈ [.inside .tick, .inside .poll]) :
    exec .classify s = .next (s.answer (.action s.milestone)) :=
  State.issuedBy_mem hctx _

/-- Only a device built with the home variant has the home action to classify (R160, R167). -/
theorem State.homeVariant_of_milestone {s : State} (h : s.milestone = .homeAndReport) : s.cfg.homeVariant = true := by
  contrapose! h
  rw [milestone, classify, if_neg h]
  split_ifs <;> decide

/-- Inside a `POLL` while `Stopped`, the action that `CLASSIFY` answers runs, `ACT.HOME` too (R164 to R167). -/
theorem exec_ofAction_milestone {s : State} (hctx : s.ctx = .inside .poll) (hrun : s.run = .stopped) :
    exec (Instr.ofAction s.milestone) s = .next (s.runAction s.milestone) := by
  have hacts : s.actAs s.milestone = .next (s.runAction s.milestone) := State.actAs_answers hctx (.inr hrun)
  cases ha : s.milestone with
  | homeAndReport =>
    rw [Instr.ofAction, exec_actHome, if_pos (State.homeVariant_of_milestone ha), ← ha]
    exact hacts
  | none | stopAndReport | reverseAndReport =>
    rw [ha] at hacts
    exact hacts

/-- Settles O57: `CLASSIFY` answers the milestone, and its action acts on the registers as the `POLL` does. -/
theorem pollIsItsSubSteps : Obligations.PollIsItsSubSteps := by
  intro s t hctx hrun ht
  rw [exec_poll_stopped hctx hrun] at ht
  obtain rfl := Host.Outcome.next.inj ht
  refine ⟨s.tagged (.inside .poll) (.action s.milestone),
    (s.runAction s.milestone).tagged (.inside .poll) (.action s.milestone), s.milestone, ?_, rfl, ?_, ?_⟩
  · rw [exec_classify (by simp), s.issueAs_inside, State.tagged_milestone, State.tagged_answer]
  · rw [State.tagged_issueAs_inside, ← State.tagged_runAction]
    exact exec_ofAction_milestone (s := s.tagged (.inside .poll) (.action s.milestone)) rfl hrun
  · rw [← hctx]
    exact s.runAction_eq_tagged _

/-! ### A `TICK` by its sub-steps (44_operation_classes R172, 42_motion R140) -/

theorem exec_stop {s : State} (hctx : s.ctx = .inside .tick) : exec .stop s = .next s.stopTimer :=
  State.issuedBy_mem (List.mem_singleton.mpr hctx) _

/-- Inside a running `TICK`, `ADV.m` of a legal entry drives the registers as the `TICK` does (R121). -/
theorem exec_ofMode_inside_tick {s : State} (hrun : s.run = .running)
    (hlegal : legal (selected s.cfg s.cfg.mode s.step) = true) :
    exec (Instr.ofMode s.cfg.mode) (s.issueAs (.inside .tick)) =
      .next ((s.drive (selected s.cfg s.cfg.mode s.step)).tagged (.inside .tick)
        (.adv (s.step + sign s.rot) (selected s.cfg s.cfg.mode s.step))) := by
  rw [exec_ofMode, s.issueAs_inside, State.advanceAs_eq_next]
  refine ⟨rfl, hrun, rfl, ?_⟩
  rw [State.advance_legal (s.tagged (.inside .tick) s.ret) _ hlegal, State.tagged_cfg, State.tagged_step,
    State.tagged_rot, State.tagged_drive, State.tagged_answer]

/-- Settles O55: the index stored after `ADV.m` makes the ticked state, and `STOP` runs where the stop check stops. -/
theorem tickIsItsSubSteps : Obligations.TickIsItsSubSteps := by
  intro s t hctx hrun ht
  obtain ⟨-, ⟨hstopped, -⟩ | ⟨-, hlegal, rfl⟩⟩ := (execTick_eq_next s t).mp ht
  · simp [hrun] at hstopped
  refine ⟨_, s.ticked.tagged (.inside .tick) (.action s.ticked.milestone), _, s.ticked.milestone,
    exec_ofMode_inside_tick hrun hlegal, rfl, rfl, ?_, rfl, fun hnone => ?_, fun hmilestone => ?_⟩
  · rw [State.tagged_storeStep, State.tagged_issueAs_inside, exec_classify (by simp), State.tagged_answer]
    rfl
  · rw [State.stopCheck, if_pos hnone, ← s.ticked_ret]
    rfl
  · refine ⟨_, exec_stop (by simp), ?_⟩
    rw [State.stopCheck, if_neg hmilestone, ← s.ticked_ret]
    rfl

/-! ### An `APPLY` by its sub-steps (44_operation_classes R172, 40_coil_driver R100, R104) -/

/-- A sub-step that its parent issues and that answers, and then the rest of the run. -/
theorem issueAll_cons_of_exec {s t : State} {c : Ctx} {i : Instr} (h : exec i (s.issueAs c) = .next t)
    (rest : List (Ctx × Instr)) : issueAll ((c, i) :: rest) s = issueAll rest t := by
  rw [issueAll, h, andThen_next]

/-- The sub-steps of an `APPLY`, each issued inside it. -/
def insideApply (is : List Instr) : List (Ctx × Instr) := is.map (fun i => (.inside .apply, i))

theorem issueAll_insideApply_cons {s t : State} {i : Instr} (hctx : s.ctx = .inside .apply) (h : exec i s = .next t)
    (is : List Instr) : issueAll (insideApply (i :: is)) s = issueAll (insideApply is) t :=
  issueAll_cons_of_exec (by rw [State.issueAs_inside_of_ctx hctx, h]) _

theorem exec_dt {s : State} (hctx : s.ctx = .inside .apply) : exec .dt s = .next (s.perform .gap) :=
  deadTimeOnlyMarksTheGap s hctx

theorem exec_rdlatch {s : State} (hctx : s.ctx = .inside .apply) : exec .rdlatch s = .next (s.answer (.latch s.latch)) :=
  State.issuedBy_mem (by simp [hctx]) _

/-- A record that a per-pin `APPLY` makes: the gap, or a write of one of the eight switches. -/
def WriteRec.ByPin : WriteRec → Prop
  | .pin b _ => b < 8
  | .gap => True
  | .off _ | .on _ => False

theorem State.byPin_of_mem_plan {s : State} (hpin : s.cfg.granularity = .perPin) {p : Pattern} {r : WriteRec}
    (h : r ∈ s.plan p) : r.ByPin := by
  simp only [plan, switchPlan, List.mem_append, List.mem_cons] at h
  obtain hoff | rfl | hon := h
  · obtain ⟨b, hb, rfl⟩ := List.mem_map.mp ((offWrites_perPin_perm hpin _ p).mem_iff.mp hoff)
    exact ((mem_bitsAt p false b).mp hb).1
  · trivial
  · obtain ⟨b, hb, rfl⟩ := List.mem_map.mp ((onWrites_perPin_perm hpin _ p).mem_iff.mp hon)
    exact ((mem_bitsAt p true b).mp hb).1

/-- Inside a per-pin `APPLY`, the sub-step of a record performs that record (R102, R104). -/
theorem exec_opOfWrite {s : State} (hctx : s.ctx = .inside .apply) (hpin : s.cfg.granularity = .perPin) {r : WriteRec}
    (hr : r.ByPin) : exec (opOfWrite r) s = .next (s.perform r) := by
  cases r with
  | pin b v => exact exec_pinw hctx hpin hr v
  | gap => exact exec_dt hctx
  | off | on => exact hr.elim

/-- Inside a per-pin `APPLY`, the sub-steps of a list of records perform the list. -/
theorem issueAll_opOfWrite {s : State} (hctx : s.ctx = .inside .apply) (hpin : s.cfg.granularity = .perPin)
    {rs : List WriteRec} (hrs : ∀ r ∈ rs, r.ByPin) :
    issueAll (insideApply (rs.map opOfWrite)) s = .next (s.performAll rs) := by
  induction rs generalizing s with
  | nil => rfl
  | cons r rs ih =>
    obtain ⟨hr, hrest⟩ := List.forall_mem_cons.mp hrs
    exact (issueAll_insideApply_cons hctx (exec_opOfWrite hctx hpin hr) _).trans (ih hctx hpin hrest)

/-- In bulk mode `OFFW`, `DT` and `ONW` draw the orders of the plan and perform it (R101 to R103). -/
theorem State.writePorts_gap_writePorts {s : State} (hbulk : s.cfg.granularity = .bulk) (p : Pattern) :
    ((s.writePorts .off (~~~p)).perform .gap).writePorts .on p = { s.performAll (s.plan p) with free := s.free + 2 } := by
  simp [writePorts, performAll_eq, perform, plan, switchPlan, offWrites_bulk hbulk, onWrites_bulk hbulk,
    writesLatch_append]

/-- Inside a bulk `APPLY`, the three sub-steps perform the plan (R100). -/
theorem issueAll_bulk {s : State} (hctx : s.ctx = .inside .apply) (hbulk : s.cfg.granularity = .bulk) (p : Pattern) :
    issueAll (insideApply [.offw (~~~p), .dt, .onw p]) s =
      .next { s.performAll (s.plan p) with free := s.free + 2 } := by
  have hoff : (s.writePorts .off (~~~p)).ctx = .inside .apply := by
    rw [s.writePorts_off]
    exact hctx
  have hgap : ((s.writePorts .off (~~~p)).perform .gap).ctx = .inside .apply := hoff
  rw [issueAll_insideApply_cons hctx (exec_offw hctx _), issueAll_insideApply_cons hoff (exec_dt hoff),
    issueAll_insideApply_cons hgap (exec_onw hgap _), State.writePorts_gap_writePorts hbulk]
  rfl

/-- An `APPLY` of a differing pattern performs its plan, whatever the tags while it does. -/
theorem State.drive_eq_tagged_performAll {s : State} {p : Pattern} (hdiffers : s.latch ≠ p) (c : Ctx) (r : Ret) :
    s.drive p = { (s.tagged c r).performAll (s.plan p) with ctx := s.ctx, ret := s.ret, free := s.free + 2 } := by
  rw [drive, if_neg hdiffers, tagged_performAll, performAll_eq]
  rfl

/-- Settles O56: `RDLATCH` only answers, and the sub-steps after it perform the plan of the `APPLY`. -/
theorem applyIsItsSubSteps : Obligations.ApplyIsItsSubSteps := by
  intro s t p ht
  obtain rfl := eq_drive_of_exec_apply ht
  have hread : exec .rdlatch (s.issueAs (.inside .apply)) = .next (s.tagged (.inside .apply) (.latch s.latch)) :=
    exec_rdlatch rfl
  by_cases hsame : s.latch = p
  · refine ⟨s.tagged (.inside .apply) (.latch s.latch), ?_, ?_⟩
    · rw [State.applyOps, if_pos hsame]
      exact issueAll_cons_of_exec hread []
    · rw [s.drive_same p hsame, if_pos hsame]
      rfl
  · rw [if_neg hsame, State.applyOps, if_neg hsame]
    have hdrive := State.drive_eq_tagged_performAll hsame (.inside .apply) (.latch s.latch)
    cases hgran : s.cfg.granularity with
    | bulk =>
      have hplan := issueAll_bulk (s := s.tagged (.inside .apply) (.latch s.latch)) rfl hgran p
      exact ⟨_, (issueAll_cons_of_exec hread _).trans hplan, hdrive⟩
    | perPin =>
      have hplan := issueAll_opOfWrite (s := s.tagged (.inside .apply) (.latch s.latch)) rfl hgran
        (fun _ => State.byPin_of_mem_plan (p := p) hgran)
      exact ⟨_, (issueAll_cons_of_exec hread _).trans hplan, hdrive⟩

end Sys2Proof.Machine

namespace Sys2Proof.Machine

/-! ### One step, one equation for each thing it takes (60_exceptions R181, R183, R185) -/

/-- A due interrupt runs `TICK` in the interrupt context, with the pending flag cleared (R181, R182). -/
theorem step_interruptDue {s : State} (hok : configOk s.cfg = true) (hdue : s.interruptDue = true) :
    step s = exec .tick s.enterInterrupt := by
  simp only [step, if_pos hok, State.take, if_pos hdue, decode_tickWord]

section
variable {s : State} {rest : List Event} (hok : configOk s.cfg = true) (hdue : s.interruptDue = false)
include hok hdue

theorem step_elapse (hinbox : s.inbox = .elapse :: rest) : step s = .next (State.elapse { s with inbox := rest }) := by
  simp [step, hok, State.take, hdue, State.takeEvent, hinbox]

theorem step_rst (hinbox : s.inbox = .rst :: rest) : step s = .next (State.powerCycle { s with inbox := rest }) := by
  simp [step, hok, State.take, hdue, State.takeEvent, hinbox]

theorem step_idle (hinbox : s.inbox = []) : step s = .next s := by
  simp [step, hok, State.take, hdue, State.takeEvent, hinbox]
end

/-- Settles O17: the step is the elapsing of the period, whose equation has the two cases. -/
theorem elapsedPeriodIsRememberedOnlyWhileRunning : Obligations.ElapsedPeriodIsRememberedOnlyWhileRunning := by
  intro s rest hok hinbox hdue
  rw [step_elapse hok hdue hinbox, State.elapse_eq]
  exact ⟨fun hrun => by simp [hrun], fun hrun => by simp [hrun]⟩

theorem tickIssued_iff (es : List Event) : tickIssued es = true ↔ ∃ w rest, es = .issue .timer w :: rest := by
  match es with
  | .issue .timer _ :: _ | .issue .foreground _ :: _ | .issue (.inside _) _ :: _ | .elapse :: _ | .rst :: _ | [] =>
    simp [tickIssued]

/-- When a pending period is taken (R181, R183, R185). -/
theorem State.interruptDue_iff (s : State) :
    s.interruptDue = true ↔ s.tickPending = true ∧ s.run = .running ∧ tickGoesOn s.inbox = false ∧
      ∀ w rest, s.inbox ≠ .issue .timer w :: rest := by
  have hissued : tickIssued s.inbox = false ↔ ∀ w rest, s.inbox ≠ .issue .timer w :: rest := by
    rw [← Bool.not_eq_true, tickIssued_iff]
    simp only [not_exists, ne_eq]
  simp only [interruptDue, Bool.and_eq_true, Bool.not_eq_true', beq_iff_eq, hissued, and_assoc]

/-- Settles O16: the interrupt is due, or a `TICK` goes on and the first event is taken. -/
theorem pendingPeriodRunsTick : Obligations.PendingPeriodRunsTick := by
  intro s hok hpending hrun
  refine ⟨fun hgoes hissued => ?_, fun c w rest i hc hinbox hdecode => ?_, fun rest hgoes hinbox => ?_⟩
  · exact step_interruptDue hok (s.interruptDue_iff.mpr ⟨hpending, hrun, hgoes, hissued⟩)
  · have hwithin : c.withinTick = true := by
      simp only [List.mem_cons, List.not_mem_nil, or_false] at hc
      obtain rfl | rfl | rfl := hc <;> rfl
    have hdue : s.interruptDue = false := State.not_interruptDue_of_tickGoesOn (by rw [hinbox]; exact hwithin)
    have hnotTimer : c ≠ .timer := by
      rintro rfl
      exact Bool.false_ne_true hwithin
    rw [step_issue_some hok hinbox hdue hdecode, State.issueAs_eq, if_neg hnotTimer]
  · have hdue : s.interruptDue = false := State.not_interruptDue_of_tickGoesOn (by rw [hinbox]; exact hgoes)
    rw [step_elapse hok hdue hinbox, State.elapse_eq]
    simp [hrun, hpending]

/-! ### The return from the interrupt (60_exceptions R185) -/

/-- The value of a two's-complement register is in its range, of a register of no bits too. -/
theorem inRegister_toInt {w : Nat} (x : BitVec w) : inRegister w x.toInt = true := by
  rw [inRegister_iff]
  cases w with
  | zero => simp [BitVec.of_length_zero]
  | succ w => exact ⟨BitVec.le_toInt x, BitVec.toInt_lt⟩

/-- Whatever is stored, `STEP` holds a value of its register (R19, R20). -/
theorem State.storeStep_step_inRegister (s : State) (n : Int) :
    inRegister s.cfg.stepWidth (s.storeStep n).step = true := by
  unfold storeStep
  split
  · assumption
  · exact inRegister_toInt _

theorem State.ticked_step_inRegister (s : State) : inRegister s.cfg.stepWidth s.ticked.step = true := by
  simpa [ticked] using (s.drive (selected s.cfg s.cfg.mode s.step)).storeStep_step_inRegister (s.step + sign s.rot)

@[simp] theorem State.ticked_tickPending (s : State) : s.ticked.tickPending = s.tickPending := by simp [ticked]

/-- The stop check discards a pending period exactly where it stops a running block (R144). -/
theorem State.stopCheck_tickPending {s : State} (hrun : s.run = .running) :
    s.stopCheck.tickPending = if s.stopCheck.run = .stopped then false else s.tickPending := by
  rw [stopCheck_eq]
  by_cases hm : s.milestone = .none <;> simp [hm, hrun]

/-- Settles O35: the fields of the driven and stored state after its stop check. -/
theorem tickReturnsFromTheInterrupt : Obligations.TickReturnsFromTheInterrupt := by
  intro s hctx hrun hok
  refine ⟨_, exec_tick_running hctx hrun hok, rfl, ?_, ?_, ?_, ?_⟩
  · simpa using State.stopCheck_tickPending (s := s.ticked) (by simpa using hrun)
  · simpa using s.ticked_step_inRegister
  · simp
  · simp

/-! ### The stuck state (60_exceptions R198) -/

theorem State.stuck_iff (s : State) : s.stuck = true ↔ s.run = .stopped ∧ s.milestone = .none := by
  simp [stuck]

/-- Settles O48: while stuck the timer's `TICK` is ignored, and of the foreground's operations the `POLL` has no action. -/
theorem stuckStateStaysStuck : Obligations.StuckStateStaysStuck := by
  intro s t i hstuck hagent h
  obtain ⟨hrun, hmilestone⟩ := s.stuck_iff.mp hstuck
  obtain hctx | hctx := hagent
  · obtain ⟨-, ⟨-, rfl⟩ | ⟨hrunning, -⟩⟩ := exec_timer_cases hctx h
    · exact ⟨hstuck, rfl, rfl⟩
    · exact nomatch hrun.symm.trans hrunning
  · obtain ⟨-, p, -, rfl, -⟩ | ⟨r, rfl, -⟩ | ⟨-, ⟨-, rfl⟩ | ⟨-, rfl⟩⟩ := exec_foreground_cases hctx h
    · exact ⟨(State.stuck_iff _).mpr (by simp [hrun, hmilestone]), s.drive_step p, s.drive_rot p⟩
    · exact ⟨hstuck, rfl, rfl⟩
    · exact ⟨hstuck, rfl, rfl⟩
    · rw [hmilestone, s.runAction_none]
      exact ⟨hstuck, rfl, rfl⟩

/-! ### What each context writes (60_exceptions R187, 20_memory R60) -/

/-- The contexts that may write the latch (R60): a running `TICK` and its sub-steps, the foreground and its `BRAKE` while
`Stopped`, and the sub-steps of an `APPLY`. -/
def State.MayWriteLatch (s : State) : Prop :=
  ((s.ctx = .timer ∨ s.ctx = .inside .tick ∨ s.ctx = .inside .adv) ∧ s.run = .running) ∨
    ((s.ctx = .foreground ∨ s.ctx = .inside .brake) ∧ s.run = .stopped) ∨ s.ctx = .inside .apply

theorem State.MayDrive.mayWriteLatch {s : State} (h : s.MayDrive) : s.MayWriteLatch :=
  h.imp (fun ⟨hctx, hrun⟩ => ⟨.inr (.inr hctx), hrun⟩) .inl

theorem mayWriteLatch_of_latch_ne {s t : State} {i : Instr} (h : exec i s = .next t) (hlatch : t.latch ≠ s.latch) :
    s.MayWriteLatch := by
  cases i with
  | tick =>
    obtain ⟨htimer, ⟨-, rfl⟩ | ⟨hrun, -⟩⟩ := (execTick_eq_next s t).mp h
    · exact absurd rfl hlatch
    · exact .inl ⟨.inl htimer, hrun⟩
  | advWave | advFull | advHalf =>
    obtain ⟨htick, hrun, -⟩ := (s.advanceAs_eq_next _ t).mp h
    exact .inl ⟨.inr (.inl htick), hrun⟩
  | apply p => exact ((exec_apply_eq_next s t p).mp h).1.mayWriteLatch
  | brake =>
    obtain ⟨hforeground, hdrive⟩ := (s.issuedBy_eq_next _ _ t).mp h
    have hforeground := List.mem_singleton.mp hforeground
    exact .inr (.inl ⟨.inl hforeground, (State.eq_drive_of_driveAllowed hdrive).2.2 hforeground⟩)
  | offw | onw | dt | pinw => exact .inr (.inr (List.mem_singleton.mp ((s.issuedBy_eq_next _ _ t).mp h).1))
  | stop | resume | classify | rdstep | rdlatch =>
    obtain ⟨-, ⟨⟩⟩ := (s.issuedBy_eq_next _ _ t).mp h
    exact absurd rfl hlatch
  | poll =>
    obtain ⟨-, ⟨-, rfl⟩ | ⟨-, rfl⟩⟩ := (execPoll_eq_next s t).mp h
    · exact absurd rfl hlatch
    · exact absurd (State.runAction_latch _ _) hlatch
  | actNone | actStop | actRev =>
    obtain ⟨-, -, ht⟩ := (s.actAs_eq_next _ t).mp h
    exact absurd (by rw [ht, State.runAction_latch]) hlatch
  | actHome =>
    obtain ⟨-, -, ht⟩ := (s.actAs_eq_next _ t).mp ((execActHome_eq_next s t).mp h).2
    exact absurd (by rw [ht, State.runAction_latch]) hlatch

/-- The interrupt keeps `ROT`, and `RUN` but for its stop check (R187). -/
theorem exec_timer_motion {s t : State} {i : Instr} (hctx : s.ctx = .timer) (h : exec i s = .next t) :
    t.rot = s.rot ∧ (t.run = s.run ∨ t.run = .stopped) := by
  obtain ⟨-, ⟨-, rfl⟩ | ⟨-, rfl⟩⟩ := exec_timer_cases hctx h
  · exact ⟨rfl, .inl rfl⟩
  · by_cases hm : s.ticked.milestone = .none
    · exact ⟨by simp, .inl (by simp [hm])⟩
    · exact ⟨by simp, .inr (by simp [hm])⟩

/-- While `Running` the foreground only reads (R187). -/
theorem exec_foreground_running {s t : State} {i : Instr} (hctx : s.ctx = .foreground) (hrun : s.run = .running)
    (h : exec i s = .next t) : t = s.answer t.ret := by
  obtain ⟨hstopped, -⟩ | ⟨r, rfl, -⟩ | ⟨-, ⟨-, rfl⟩ | ⟨hstopped, -⟩⟩ := exec_foreground_cases hctx h
  · exact nomatch hrun.symm.trans hstopped
  · rfl
  · rfl
  · exact nomatch hrun.symm.trans hstopped

/-- `STEP` is written by a `TICK`, which the foreground does not issue (R142). -/
theorem exec_foreground_step {s t : State} {i : Instr} (hctx : s.ctx = .foreground) (h : exec i s = .next t) :
    t.step = s.step := by
  refine exec_step_of_ne_tick ?_ h
  rintro rfl
  simp [((execTick_eq_next s t).mp h).1] at hctx

/-- Settles O50: context by context, and the latch by the operations that write it. -/
theorem eachContextWritesOnlyItsState : Obligations.EachContextWritesOnlyItsState := fun _ _ _ h =>
  ⟨fun hctx => exec_timer_motion hctx h, fun hctx hrun => exec_foreground_running hctx hrun h,
    fun hctx _ => exec_foreground_step hctx h, mayWriteLatch_of_latch_ne h⟩

/-! ### The observations (60_exceptions R194, notes/assumptions/4.md, 17.md) -/

/-- The state with another trace, other calls and another answer: the observations of a run. -/
def State.observing (s : State) (tr : List WriteRec) (ca : List Call) (re : Ret) : State :=
  { s with trace := tr, calls := ca, ret := re }

section
variable (s : State) (tr : List WriteRec) (ca : List Call) (re : Ret)

theorem State.observing_cfg : (s.observing tr ca re).cfg = s.cfg := rfl

/-! Each update does to the registers what it does under any observations; at most it adds to these. -/

theorem State.observing_performAll (rs : List WriteRec) :
    (s.observing tr ca re).performAll rs = (s.performAll rs).observing (tr ++ rs) ca re := by
  rw [performAll_eq, performAll_eq]
  rfl

theorem State.observing_writePorts (write : Pattern → WriteRec) (mask : Pattern) :
    (s.observing tr ca re).writePorts write mask = (s.writePorts write mask).observing
      (tr ++ portWrites s.cfg (Config.freeOrder s.free) write mask) ca re := by
  rw [writePorts, observing_performAll]
  rfl

theorem State.observing_drive (p : Pattern) : ∃ tr', (s.observing tr ca re).drive p = (s.drive p).observing tr' ca re := by
  by_cases h : s.latch = p
  · exact ⟨tr, by rw [s.drive_same p h, (s.observing tr ca re).drive_same p h]⟩
  · refine ⟨tr ++ s.plan p, ?_⟩
    rw [s.drive_differs p h, (s.observing tr ca re).drive_differs p h]
    rfl

theorem State.observing_storeStep (n : Int) :
    (s.observing tr ca re).storeStep n = (s.storeStep n).observing tr ca re := by
  unfold storeStep
  rw [observing_cfg]
  split <;> rfl

theorem State.observing_stopCheck : (s.observing tr ca re).stopCheck = s.stopCheck.observing tr ca re := by
  rw [stopCheck_eq, stopCheck_eq]
  rfl

theorem State.observing_ticked : ∃ tr', (s.observing tr ca re).ticked = s.ticked.observing tr' ca re := by
  obtain ⟨tr', hdrive⟩ := s.observing_drive tr ca re (selected s.cfg s.cfg.mode s.step)
  exact ⟨tr', (congrArg (·.storeStep (s.step + sign s.rot)) hdrive).trans (observing_storeStep _ tr' ca re _)⟩

theorem State.observing_runAction (a : Action) :
    ∃ ca', (s.observing tr ca re).runAction a = (s.runAction a).observing tr ca' re := by
  rw [runAction_eq, runAction_eq]
  exact ⟨_, rfl⟩
end

section
variable {s t : State} (tr : List WriteRec) (ca : List Call) (re : Ret)

theorem State.advance_observing {m : DriveMode} (h : s.advance m = .next t) :
    ∃ tr' re', (s.observing tr ca re).advance m = .next (t.observing tr' ca re') := by
  obtain ⟨hlegal, rfl⟩ := (s.advance_eq_next m t).mp h
  obtain ⟨tr', hdrive⟩ := s.observing_drive tr ca re (selected s.cfg m s.step)
  exact ⟨tr', _, (advance_eq_next _ m _).mpr ⟨hlegal, (congrArg (State.answer · _) hdrive).symm⟩⟩

theorem State.actAs_observing {a : Action} (h : s.actAs a = .next t) :
    ∃ ca', (s.observing tr ca re).actAs a = .next (t.observing tr ca' re) := by
  obtain ⟨hctx, hrun, rfl⟩ := (s.actAs_eq_next a t).mp h
  obtain ⟨ca', haction⟩ := s.observing_runAction tr ca re a
  exact ⟨ca', (actAs_eq_next _ a _).mpr ⟨hctx, hrun, haction.symm⟩⟩

/-- An operation that answers does so under any observations, with the same registers. -/
theorem exec_observing {i : Instr} (h : exec i s = .next t) :
    ∃ tr' ca' re', exec i (s.observing tr ca re) = .next (t.observing tr' ca' re') := by
  cases i with
  | tick =>
    obtain ⟨hctx, ⟨hrun, rfl⟩ | ⟨hrun, hlegal, rfl⟩⟩ := (execTick_eq_next s t).mp h
    · exact ⟨tr, ca, re, (execTick_eq_next _ _).mpr ⟨hctx, .inl ⟨hrun, rfl⟩⟩⟩
    · obtain ⟨tr', hticked⟩ := s.observing_ticked tr ca re
      refine ⟨tr', ca, re, (execTick_eq_next _ _).mpr ⟨hctx, .inr ⟨hrun, hlegal, ?_⟩⟩⟩
      rw [hticked, State.observing_stopCheck]
      rfl
  | advWave | advFull | advHalf =>
    obtain ⟨hctx, hrun, hmode, hadv⟩ := (s.advanceAs_eq_next _ t).mp h
    obtain ⟨tr', re', hobserving⟩ := State.advance_observing tr ca re hadv
    exact ⟨tr', ca, re', (State.advanceAs_eq_next _ _ _).mpr ⟨hctx, hrun, hmode, hobserving⟩⟩
  | apply | brake =>
    obtain ⟨hctx, hdrive⟩ := (s.issuedBy_eq_next _ _ t).mp h
    obtain ⟨happly, hmay⟩ := (s.driveAllowed_eq_next _ t).mp hdrive
    obtain ⟨hlegal, rfl⟩ := (s.applyPattern_eq_next _ t).mp happly
    obtain ⟨tr', hdriven⟩ := s.observing_drive tr ca re _
    exact ⟨tr', ca, re, (State.issuedBy_eq_next _ _ _ _).mpr ⟨hctx, (State.driveAllowed_eq_next _ _ _).mpr
      ⟨(State.applyPattern_eq_next _ _ _).mpr ⟨hlegal, hdriven⟩, hmay⟩⟩⟩
  | offw | onw =>
    obtain ⟨hctx, ⟨⟩⟩ := (s.issuedBy_eq_next _ _ t).mp h
    exact ⟨_, ca, re, (State.issuedBy_eq_next _ _ _ _).mpr
      ⟨hctx, congrArg Host.Outcome.next (s.observing_writePorts tr ca re _ _)⟩⟩
  | dt | stop | resume | classify | rdstep | rdlatch =>
    obtain ⟨hctx, ⟨⟩⟩ := (s.issuedBy_eq_next _ _ t).mp h
    exact ⟨_, ca, _, (State.issuedBy_eq_next _ _ _ _).mpr ⟨hctx, rfl⟩⟩
  | pinw b v =>
    obtain ⟨hctx, hpin⟩ := (s.issuedBy_eq_next _ _ t).mp h
    split at hpin
    · next hb =>
      cases hpin
      exact ⟨_, ca, re, (State.issuedBy_eq_next _ _ _ _).mpr ⟨hctx, if_pos hb⟩⟩
    · cases hpin
  | poll =>
    obtain ⟨hctx, ⟨hrun, rfl⟩ | ⟨hrun, rfl⟩⟩ := (execPoll_eq_next s t).mp h
    · exact ⟨tr, ca, re, (execPoll_eq_next _ _).mpr ⟨hctx, .inl ⟨hrun, rfl⟩⟩⟩
    · obtain ⟨ca', haction⟩ := s.observing_runAction tr ca re s.milestone
      exact ⟨tr, ca', re, (execPoll_eq_next _ _).mpr ⟨hctx, .inr ⟨hrun, haction.symm⟩⟩⟩
  | actNone | actStop | actRev =>
    obtain ⟨ca', hobserving⟩ := State.actAs_observing tr ca re h
    exact ⟨tr, ca', re, hobserving⟩
  | actHome =>
    obtain ⟨hvariant, hact⟩ := (execActHome_eq_next s t).mp h
    obtain ⟨ca', hobserving⟩ := State.actAs_observing tr ca re hact
    exact ⟨tr, ca', re, (execActHome_eq_next _ _).mpr ⟨hvariant, hobserving⟩⟩
end

/-- Settles O54: the next state under other observations differs in its observations alone. -/
theorem observationsAreNeverRead : Obligations.ObservationsAreNeverRead := by
  intro s t i tr ca re h
  obtain ⟨tr', ca', re', hobserving⟩ := exec_observing tr ca re h
  exact ⟨_, hobserving, rfl, rfl, rfl, rfl, rfl, rfl, rfl⟩

/-! ### Where a fault comes from (40_coil_driver R105, 60_exceptions R195) -/

/-- The issue check raises no fault. -/
theorem State.issuedBy_eq_fault (s : State) (cs : List Ctx) (o : Out) (r : Fault) :
    s.issuedBy cs o = .fault r ↔ s.ctx ∈ cs ∧ o = .fault r := by
  by_cases h : s.ctx ∈ cs
  · simp [State.issuedBy_mem h, h]
  · simp [State.issuedBy_not_mem h, h]

theorem State.applyPattern_eq_fault (s : State) (p : Pattern) (r : Fault) :
    s.applyPattern p = .fault r ↔ legal p = false ∧ r = .shootThrough := by
  cases h : legal p with
  | true => simp [s.applyPattern_legal h]
  | false => simp [s.applyPattern_illegal h]

/-- From the foreground a drive faults while `Stopped` only, on an illegal pattern (R105, R196). -/
theorem State.driveAllowed_applyPattern_eq_fault {s : State} (hctx : s.ctx = .foreground) (p : Pattern) (r : Fault) :
    s.driveAllowed (s.applyPattern p) = .fault r ↔ s.run = .stopped ∧ legal p = false ∧ r = .shootThrough := by
  rw [driveAllowed_foreground hctx]
  cases hrun : s.run <;> simp [applyPattern_eq_fault]

/-- The interrupt raises no fault: its one operation applies an entry of the table, which is legal (R15, R121). -/
theorem exec_timer_ne_fault {s : State} (hctx : s.ctx = .timer) (hok : configOk s.cfg = true) (i : Instr) (r : Fault) :
    exec i s ≠ .fault r := by
  by_cases hi : i = .tick
  · subst hi
    cases hrun : s.run with
    | stopped => simp [exec_tick_stopped hctx hrun]
    | running => simp [exec_tick_running hctx hrun hok]
  · have hmem : s.ctx ∉ issuers i := by rwa [hctx, timer_mem_issuers]
    simp [exec_of_not_mem_issuers hmem]

/-- An operation that is not refused was issued by a context that may issue it (R84, R87). -/
theorem ctx_mem_issuers {s : State} {i : Instr} (h : exec i s ≠ .refused .reservedEncoding) : s.ctx ∈ issuers i :=
  not_imp_comm.mp exec_of_not_mem_issuers h

/-- Of the foreground's operations an `APPLY` alone faults, `BRAKE` applying a legal pattern (R81). -/
theorem eq_apply_of_exec_foreground_fault {s : State} {i : Instr} {r : Fault} (hctx : s.ctx = .foreground)
    (h : exec i s = .fault r) : ∃ p, i = .apply p ∧ legal p = false ∧ s.run = .stopped ∧ r = .shootThrough := by
  have hmem : s.ctx ∈ issuers i := ctx_mem_issuers (by simp [h])
  rw [hctx, foreground_mem_issuers] at hmem
  obtain rfl | rfl | rfl | rfl | ⟨p, rfl⟩ := hmem
  · exact nomatch ((s.issuedBy_eq_fault _ _ r).mp h).2
  · exact nomatch ((s.issuedBy_eq_fault _ _ r).mp h).2
  · exact nomatch ((s.issuedBy_eq_fault _ _ r).mp h).2
  · rw [exec_brake hctx, State.driveAllowed_applyPattern_eq_fault hctx] at h
    exact absurd h.2.1 (by decide)
  · rw [exec_apply p (by simp [hctx]), State.driveAllowed_applyPattern_eq_fault hctx] at h
    obtain ⟨hrun, hillegal, hr⟩ := h
    exact ⟨p, rfl, hillegal, hrun, hr⟩

/-- A step that faults runs the `TICK` of a due interrupt or an issued operation. -/
theorem step_fault_cases {s : State} {r : Fault} (hok : configOk s.cfg = true) (h : step s = .fault r) :
    exec .tick s.enterInterrupt = .fault r ∨
      ∃ c w rest i, s.inbox = .issue c w :: rest ∧ decode w = some i ∧
        exec i (State.issueAs { s with inbox := rest } c) = .fault r := by
  cases hdue : s.interruptDue with
  | true => exact .inl ((step_interruptDue hok hdue).symm.trans h)
  | false =>
    match hinbox : s.inbox with
    | [] => exact nomatch (step_idle hok hdue hinbox).symm.trans h
    | .elapse :: rest => exact nomatch (step_elapse hok hdue hinbox).symm.trans h
    | .rst :: rest => exact nomatch (step_rst hok hdue hinbox).symm.trans h
    | .issue c w :: rest =>
      cases hdecode : decode w with
      | none => exact nomatch (step_issue_none hok hinbox hdue hdecode).symm.trans h
      | some i => exact .inr ⟨c, w, rest, i, rfl, hdecode, (step_issue_some hok hinbox hdue hdecode).symm.trans h⟩

/-- Settles O60: the agents issue no sub-step, the timer's operation does not fault, and the foreground's that does is an
`APPLY`. -/
theorem onlyAForegroundApplyCanFault : Obligations.OnlyAForegroundApplyCanFault := by
  intro s r hs h
  obtain htick | ⟨c, w, rest, i, hinbox, hdecode, hexec⟩ := step_fault_cases hs.config h
  · exact absurd htick (exec_timer_ne_fault (s := s.enterInterrupt) rfl hs.config .tick r)
  · obtain rfl | rfl := Event.issue_fromAgent (hs.tail hinbox).2
    · exact absurd hexec (exec_timer_ne_fault (State.issueAs_ctx _ _) (by simpa using hs.config) i r)
    · obtain ⟨p, rfl, hillegal, hrun, hr⟩ := eq_apply_of_exec_foreground_fault (State.issueAs_ctx _ _) hexec
      obtain ⟨rfl, -⟩ := encodeOfDecodeIsIdentity w _ hdecode
      exact ⟨p, rest, hinbox, hillegal, by simpa using hrun, hr⟩

end Sys2Proof.Machine

namespace Sys2Proof.Machine

/-! ### Reports and dwells (43_milestone R169, 70_reset R223) -/

@[simp] theorem State.writePorts_calls (s : State) (write : Pattern → WriteRec) (mask : Pattern) :
    (s.writePorts write mask).calls = s.calls := by rw [writePorts, performAll_eq]

/-- An operation that adds a call to the collaborators ran a reporting action, from `Stopped` (R165 to R168, R224). -/
theorem ranAction_of_calls_ne {s t : State} {i : Instr} (h : exec i s = .next t) (hcalls : t.calls ≠ s.calls) :
    s.run = .stopped ∧ (i = .poll ∨ i = .actStop ∨ i = .actRev ∨ i = .actHome) := by
  cases i with
  | tick =>
    obtain ⟨-, ⟨-, rfl⟩ | ⟨-, -, rfl⟩⟩ := (execTick_eq_next s t).mp h
    · exact absurd rfl hcalls
    · exact absurd (by simp) hcalls
  | advWave | advFull | advHalf =>
    obtain ⟨-, -, -, hadv⟩ := (s.advanceAs_eq_next _ t).mp h
    obtain ⟨-, rfl⟩ := (s.advance_eq_next _ t).mp hadv
    exact absurd (by simp) hcalls
  | apply | brake =>
    obtain ⟨-, hdrive⟩ := (s.issuedBy_eq_next _ _ t).mp h
    obtain ⟨-, rfl, -⟩ := State.eq_drive_of_driveAllowed hdrive
    exact absurd (s.drive_calls _) hcalls
  | offw | onw =>
    obtain ⟨-, ⟨⟩⟩ := (s.issuedBy_eq_next _ _ t).mp h
    exact absurd (s.writePorts_calls _ _) hcalls
  | dt | stop | resume | classify | rdstep | rdlatch =>
    obtain ⟨-, ⟨⟩⟩ := (s.issuedBy_eq_next _ _ t).mp h
    exact absurd rfl hcalls
  | pinw b v =>
    obtain ⟨-, hpin⟩ := (s.issuedBy_eq_next _ _ t).mp h
    split at hpin
    · cases hpin
      exact absurd rfl hcalls
    · cases hpin
  | poll =>
    obtain ⟨-, ⟨-, rfl⟩ | ⟨hstopped, -⟩⟩ := (execPoll_eq_next s t).mp h
    · exact absurd rfl hcalls
    · exact ⟨hstopped, .inl rfl⟩
  | actNone =>
    obtain ⟨-, -, rfl⟩ := (s.actAs_eq_next _ t).mp h
    exact absurd rfl hcalls
  | actStop | actRev => exact ⟨(State.eq_runAction_of_actAs (by decide) h).1, by simp⟩
  | actHome => exact ⟨(State.eq_runAction_of_actAs (by decide) ((execActHome_eq_next s t).mp h).2).1, by simp⟩

/-- Settles O53: the operations that add a call are no `TICK`, and the interrupt runs nothing else. -/
theorem slowWorkStaysOutOfTheInterrupt : Obligations.SlowWorkStaysOutOfTheInterrupt := by
  intro s t i h hcalls
  obtain ⟨hstopped, hi⟩ := ranAction_of_calls_ne h hcalls
  refine ⟨hstopped, fun hctx => ?_, hi⟩
  obtain ⟨rfl, -⟩ := exec_timer_cases hctx h
  simp at hi

/-! ### Power-on (70_reset R210) -/

/-- Settles O14: the step is the power cycle of the state without the event, each field of which is stated. -/
theorem powerOnResetsEveryRegister : Obligations.PowerOnResetsEveryRegister := by
  intro s rest hok hinbox hdue
  rw [step_rst hok hdue hinbox, State.powerCycle_eq]
  rfl

end Sys2Proof.Machine
